-- ==== Sys2Proof/Syntax.lean ====
section
/-! DEFINITION. The instructions: one constructor per row of spec/opcode_table.json, in the table's
order. No row has an operand (30_encoding.md R119). -/

namespace Sys2Proof

/-- The seven commands of format CMD8 (30_encoding.md R101) and the five control writes of format
CTRL32 (30_encoding.md R118). -/
inductive Instr where
  /-- NONE, code 0x00 (40_engine_commands.md R130). -/
  | none
  /-- RESET, code 0x01 (R131). -/
  | reset
  /-- SOFT_START, code 0x02 (R134). -/
  | softStart
  /-- START, code 0x03 (R135). -/
  | start
  /-- PING, code 0x04 (R136). -/
  | ping
  /-- SOFT_STOP, code 0x05 (R138). -/
  | softStop
  /-- STOP, code 0x06 (R137). -/
  | stop
  /-- OVL_RESET, offset 0x28 bit 0 (46_overload.md R379). -/
  | ovlReset
  /-- ZC_STOP_CHG, offset 0x3C bit 0 (45_zero_crossing_fsm.md R319). -/
  | zcStopChg
  /-- ZC_STOP_INV, offset 0x3C bit 1 (R319). -/
  | zcStopInv
  /-- CLR_FB_REVERSED, offset 0x04 bit 3 (20_memory.md R83). -/
  | clrFbReversed
  /-- CLR_OUT_SHORTED, offset 0x04 bit 4 (R83). -/
  | clrOutShorted
  deriving DecidableEq, Repr

/-- The two encoded formats (30_encoding.md R101, R118). -/
inductive Format where
  | cmd8
  | ctrl32
  deriving DecidableEq, Repr

/-- The format of each instruction, the "format" column of the opcode table. -/
def Instr.format : Instr → Format
  | .none => .cmd8
  | .reset => .cmd8
  | .softStart => .cmd8
  | .start => .cmd8
  | .ping => .cmd8
  | .softStop => .cmd8
  | .stop => .cmd8
  | .ovlReset => .ctrl32
  | .zcStopChg => .ctrl32
  | .zcStopInv => .ctrl32
  | .clrFbReversed => .ctrl32
  | .clrOutShorted => .ctrl32

end Sys2Proof
end

