-- ==== Sys2Proof/Word.lean ====
section
/-! DEFINITION. The containers of 00_scope.md R16(a): `uN` is an unsigned and `sN` a two's-complement
container of N bits. A signed container is read with `BitVec.toInt`, an unsigned one with
`BitVec.toNat`; what is stored into one goes through the saturating stores of Machine/Operands.lean. -/

namespace Sys2Proof

/-- u2: `norm_halves`, `hist_fill` (10_state.md R24, R52). -/
abbrev U2 := BitVec 2
/-- u8: the command byte (10_state.md R23). -/
abbrev U8 := BitVec 8
/-- u16: duties, counters, unsigned samples. -/
abbrev U16 := BitVec 16
/-- u32: accumulators, table entries, register words. -/
abbrev U32 := BitVec 32
/-- s16: signed samples and `zc_offset`. -/
abbrev S16 := BitVec 16
/-- s17: a sign-corrected feedback sample (10_state.md R27). -/
abbrev S17 := BitVec 17
/-- s32: the PID state and the Q16 values (10_state.md R25, 41_q16_arithmetic.md R180). -/
abbrev S32 := BitVec 32

end Sys2Proof
end

