-- ==== Sys2Proof/Decode.lean ====
section
/-! DEFINITION. The decoder and, after it, the encoder. The block fetches no instruction stream
(30_encoding.md R100): a command byte is decoded when an `eng_tick` finds it in the latch, a control
write when the host performs it. The unit of decoding is a 32-bit word together with the register
offset it is written to, its carrier (30_encoding.md R102, R118). -/

namespace Sys2Proof

/-- Why a word is no instruction. -/
inductive DecodeError where
  /-- A command code 0x07 to 0xFF (30_encoding.md R103). -/
  | reservedCode (b : U8)
  /-- A word for a control register with none of its decoded bits set: it does nothing (30 R118). -/
  | noDecodedBit (offset : Nat)
  /-- The offset is not CMD, STATUS, OVL_CTRL or ZC_CTRL (10_state.md R55). -/
  | notWritable (offset : Nat)
  /-- Not the four bytes of one word (30_encoding.md R121). -/
  | notOneWord
  deriving DecidableEq, Repr

/-- Offset of CMD (20_memory.md R74). -/
def cmdOffset : Nat := 0x00
/-- Offset of STATUS. -/
def statusOffset : Nat := 0x04
/-- Offset of OVL_CTRL. -/
def ovlCtrlOffset : Nat := 0x28
/-- Offset of ZC_CTRL. -/
def zcCtrlOffset : Nat := 0x3C

/-- One row of the opcode table: the instruction, its carrier offset, and the word's mask and match. -/
structure Row where
  instr : Instr
  offset : Nat
  mask : U32
  bits : U32
  deriving DecidableEq, Repr

/-- The CMD8 rows (30_encoding.md R101): all eight bits are the opcode. -/
def cmdRows : List Row :=
  [⟨.none, cmdOffset, 0xFF, 0x00⟩, ⟨.reset, cmdOffset, 0xFF, 0x01⟩,
   ⟨.softStart, cmdOffset, 0xFF, 0x02⟩, ⟨.start, cmdOffset, 0xFF, 0x03⟩,
   ⟨.ping, cmdOffset, 0xFF, 0x04⟩, ⟨.softStop, cmdOffset, 0xFF, 0x05⟩,
   ⟨.stop, cmdOffset, 0xFF, 0x06⟩]

/-- The CTRL32 rows (30_encoding.md R118): one decoded bit each, the other bits not decoded. -/
def ctrlRows : List Row :=
  [⟨.ovlReset, ovlCtrlOffset, 0x1, 0x1⟩, ⟨.zcStopChg, zcCtrlOffset, 0x1, 0x1⟩,
   ⟨.zcStopInv, zcCtrlOffset, 0x2, 0x2⟩, ⟨.clrFbReversed, statusOffset, 0x8, 0x8⟩,
   ⟨.clrOutShorted, statusOffset, 0x10, 0x10⟩]

/-- Does the word, written to the offset, match the row? -/
def Row.hit (r : Row) (offset : Nat) (w : U32) : Bool := r.offset == offset && (w &&& r.mask) == r.bits

/-- The command byte (30_encoding.md R101, R103). -/
def decodeCmd (b : U8) : Except DecodeError Instr :=
  match cmdRows.find? (fun r => r.hit cmdOffset (b.setWidth 32)) with
  | some r => .ok r.instr
  | .none => .error (.reservedCode b)

/-- The control operations a word written to an offset carries, lowest decoded bit first; several bits
of one register may be set, "each acts independently" (30_encoding.md R118; notes/assumptions/19.md). -/
def decodeCtrl (offset : Nat) (w : U32) : List Instr :=
  (ctrlRows.filter fun r => r.hit offset w).map Row.instr

/-- A whole host write: the instructions that the word carries to the offset, or by name why there is
none. Bits 31:8 of a word for CMD are ignored (30_encoding.md R102). -/
def decodeWrite (offset : Nat) (w : U32) : Except DecodeError (List Instr) :=
  if offset == cmdOffset then
    match decodeCmd (w.setWidth 8) with
    | .ok i => .ok [i]
    | .error e => .error e
  else if offset == statusOffset || offset == ovlCtrlOffset || offset == zcCtrlOffset then
    match decodeCtrl offset w with
    | [] => .error (.noDecodedBit offset)
    | is => .ok is
  else .error (.notWritable offset)

/-- The word whose bytes stand at rising offsets: the register space is little-endian (20_memory.md
R73). A word is exactly four bytes (30_encoding.md R121). -/
def wordOfBytes : List U8 → Option U32
  | [b0, b1, b2, b3] => some (b3 ++ b2 ++ b1 ++ b0)
  | _ => .none

/-- The four bytes of a word, the one at the lowest offset first (20_memory.md R73). -/
def bytesOfWord (w : U32) : List U8 :=
  [w.extractLsb' 0 8, w.extractLsb' 8 8, w.extractLsb' 16 8, w.extractLsb' 24 8]

/-- Decoding on bytes, total: the carrier's offset and the bytes written there. -/
def decodeBytes (offset : Nat) (bs : List U8) : Except DecodeError (List Instr) :=
  match wordOfBytes bs with
  | some w => decodeWrite offset w
  | .none => .error .notOneWord

/-- The carrier offset the model takes for a bare table word. A CMD8 byte goes to CMD. A CTRL32 word
does not say its offset (OVL_RESET and ZC_STOP_CHG have the same word): DESIGN CHOICE, the first row of
the table, in the table's order, whose decoded bit is set (notes/assumptions/7.md). -/
def tableCarrier (nbits w : Nat) : Option Nat :=
  if nbits ≤ 8 then some cmdOffset
  else (ctrlRows.find? fun r => r.hit r.offset (BitVec.ofNat 32 w)).map Row.offset

/-- The instruction the decoder reads from a table row's word (the host's reading of the opcode
table): the word, laid out in its byte order, given to the decoder at its carrier offset. -/
def decodeTableWord (nbits w : Nat) : Option Instr :=
  match tableCarrier nbits w with
  | .none => .none
  | some offset =>
    match decodeBytes offset (bytesOfWord (BitVec.ofNat 32 w)) with
    | .ok (i :: _) => some i
    | _ => .none

/-- The offset an instruction's word is written to (the table's "carrier"). -/
def carrier : Instr → Nat
  | .none => cmdOffset
  | .reset => cmdOffset
  | .softStart => cmdOffset
  | .start => cmdOffset
  | .ping => cmdOffset
  | .softStop => cmdOffset
  | .stop => cmdOffset
  | .ovlReset => ovlCtrlOffset
  | .zcStopChg => zcCtrlOffset
  | .zcStopInv => zcCtrlOffset
  | .clrFbReversed => statusOffset
  | .clrOutShorted => statusOffset

/-- The word of an instruction, undecoded bits 0 (30_encoding.md R101, R118). -/
def encode : Instr → U32
  | .none => 0x00
  | .reset => 0x01
  | .softStart => 0x02
  | .start => 0x03
  | .ping => 0x04
  | .softStop => 0x05
  | .stop => 0x06
  | .ovlReset => 0x1
  | .zcStopChg => 0x1
  | .zcStopInv => 0x2
  | .clrFbReversed => 0x8
  | .clrOutShorted => 0x10

end Sys2Proof
end

