-- ==== Sys2Proof/Config.lean ====
section
/-! DEFINITION. The parameter record CFG of 00_scope.md R8 to R14 and the base address of the register
space (20_memory.md R91). The source gives a value for none of them: a model is correct for every
record that satisfies the constraints (93_implementation_defined.md P1 to P3), which are in
WellFormed.lean. Every field the spec types uN or sN has that container; the fields it types
"integer" are natural numbers. No value of the block is undefined (93 section 3), so there is no
free value here. -/

namespace Sys2Proof

/-- Zero-crossing parameters of one instance (00_scope.md R11). -/
structure ZcCfg where
  zcThreshold : U16
  phaseCountMin : U16
  phaseCountMax : U16
  winStart : U16
  winEnd : U16
  zcSpikeTol : U16
  zcMatchTol : U16
  zcConfirmTicks : U16
  deriving DecidableEq, Repr

/-- Overload parameters (00_scope.md R14). -/
structure OvlCfg where
  iZeroNominal : U16
  imeasThreshold : U16
  vdsThreshold : U16
  skipPulses : U16
  rmsThreshold : U16
  irmsTimeout : U16
  vdsTimeout : U16
  resetCount : U16
  retryLockout : U16
  deriving DecidableEq, Repr

/-- CFG: the table parameters (00_scope.md R9), the engine parameters (R10), the two zero-crossing
records (R11), the overload record (R14), and REG_BASE (20_memory.md R91). -/
structure Cfg where
  /-- `N`, the number of samples of the half-cycle table. -/
  n : Nat
  /-- `TABLE[0..N-1]`, half-sine amplitudes in unsigned Q16. -/
  table : List U32
  pwmPeriod : U16
  minDuty : U16
  maxDuty : U16
  flatTopDuty : U16
  softStartCycles : U16
  softStartMaxDuty : U16
  pingInc : U16
  pingRampHc : U16
  vbattNominal : U16
  fbDelay : Nat
  kp : S32
  ki : S32
  kd : S32
  kiSafe : S32
  iLimit : S32
  rmsSetpoint : U16
  safeICycles : U16
  noiseBand : U16
  fbZeroCountMax : U16
  satTailStart : Nat
  satThreshold : U32
  saturationDutyGain : S32
  rebalanceThreshold : U32
  zcOffsetStep : U16
  zcOffsetMax : U16
  zcChg : ZcCfg
  zcInv : ZcCfg
  ovl : OvlCfg
  /-- `REG_BASE`, the byte address of the register space (92_eei_decisions.md D8). -/
  regBase : Nat
  deriving DecidableEq, Repr

/-- The zero-crossing record of FIX8, the same for both instances (00_scope.md R11). -/
def ZcCfg.fix8 : ZcCfg where
  zcThreshold := 512
  phaseCountMin := 6
  phaseCountMax := 12
  winStart := 2
  winEnd := 2
  zcSpikeTol := 100
  zcMatchTol := 1
  zcConfirmTicks := 1

/-- The overload record of FIX8 (00_scope.md R14). -/
def OvlCfg.fix8 : OvlCfg where
  iZeroNominal := 512
  imeasThreshold := 400
  vdsThreshold := 216
  skipPulses := 2
  rmsThreshold := 100
  irmsTimeout := 3
  vdsTimeout := 5
  resetCount := 2
  retryLockout := 10

/-- FIX8, the spec's own test fixture (last column of 00_scope.md R9 to R14). DESIGN CHOICE: it is the
record of `State.reset`, with REG_BASE 0 (notes/assumptions/2.md, 3.md); unsafe for a statement about
that state only. -/
def Cfg.fix8 : Cfg where
  n := 8
  table := [0x2000, 0x8000, 0xC000, 0x10000, 0x10000, 0xC000, 0x8000, 0x2000]
  pwmPeriod := 1000
  minDuty := 20
  maxDuty := 950
  flatTopDuty := 1000
  softStartCycles := 4
  softStartMaxDuty := 800
  pingInc := 50
  pingRampHc := 2
  vbattNominal := 512
  fbDelay := 1
  kp := 0x8000
  ki := 0x4000
  kd := 0x2000
  kiSafe := 0x1000
  iLimit := 1000
  rmsSetpoint := 400
  safeICycles := 2
  noiseBand := 10
  fbZeroCountMax := 3
  satTailStart := 6
  satThreshold := 100
  saturationDutyGain := 0x8000
  rebalanceThreshold := 200
  zcOffsetStep := 1
  zcOffsetMax := 16
  zcChg := ZcCfg.fix8
  zcInv := ZcCfg.fix8
  ovl := OvlCfg.fix8
  regBase := 0

/-- `SOFT_START_INC = SOFT_START_MAX_DUTY div SOFT_START_CYCLES` (00_scope.md R12). The quotient of two
u16 values is a u16. -/
def Cfg.softStartInc (c : Cfg) : U16 := c.softStartMaxDuty / c.softStartCycles

/-- `PEAK_IDX = N div 2` (00_scope.md R13). -/
def Cfg.peakIdx (c : Cfg) : Nat := c.n / 2

end Sys2Proof
end

