-- ==== Sys2Proof/Machine/State.lean ====
section
/-! DEFINITION. The state of the block: every element of 10_state.md R22 to R52, grouped as that file
groups them, and the model's own fields: the constant parameter record, the events still to come, the
input ports, the event outputs and the word a register read returned. Plain data. -/

namespace Sys2Proof.Machine

/-- `eng_state` (30_encoding.md R104). Codes 5 to 7 are never held. -/
inductive EngState where
  | idle
  | softStart
  | normal
  | ping
  | softStop
  deriving DecidableEq, Repr

/-- `phase` (30_encoding.md R105). -/
inductive Phase where
  | positive
  | negative
  deriving DecidableEq, Repr

/-- `ovl_state` (30_encoding.md R106). -/
inductive OvlState where
  | none
  | shortOverload
  | sustainedOverload
  | shutdown
  deriving DecidableEq, Repr

/-- `zc_state(j)` (30_encoding.md R107). Codes 9 to 15 are never held. -/
inductive ZcState where
  | init
  | posWaitNeg1
  | negWaitPos1
  | posWaitNeg2
  | negWaitPos2
  | confirmNegPos
  | posDetectOc
  | confirmPosNeg
  | negDetectOc
  deriving DecidableEq, Repr

/-- `handler` (30_encoding.md R108). -/
inductive Handler where
  | default
  | inverter
  | charger
  | bootCharge
  deriving DecidableEq, Repr

/-- The zero-crossing instance index `j` (30_encoding.md R109). -/
inductive ZcId where
  | chg
  | inv
  deriving DecidableEq, Repr

/-- Sequencing state (10_state.md R22). -/
structure SeqState where
  engState : EngState
  phase : Phase
  idx : U16
  deriving DecidableEq, Repr

/-- Ramp state (10_state.md R24). -/
structure RampState where
  multiplier : U16
  rampInc : U16
  hcCount : U16
  normHalves : U2
  /-- Half-cycles of a PING completed beyond the 65535 that `hc_count` holds; the MODEL's own field
  (notes/assumptions/12.md). -/
  hcOver : U16
  deriving DecidableEq, Repr

/-- PID state (10_state.md R25). -/
structure PidState where
  integralSum : S32
  prevError : S32
  savedIntegralSum : S32
  deriving DecidableEq, Repr

/-- Flat-top state (10_state.md R26). -/
structure FlatTop where
  active : Bool
  endIdx : U16
  deriving DecidableEq, Repr

/-- Rebalancing state (10_state.md R28). -/
structure RebalState where
  dutyAcc : U32
  dutySumPos : U32
  dutySumNeg : U32
  zcOffset : S16
  deriving DecidableEq, Repr

/-- Saturation-detector state (10_state.md R29). -/
structure SatState where
  satAcc : U32
  satSumPos : U32
  satSumNeg : U32
  reduceActive : Bool
  reducePhase : Phase
  reduceAmt : U16
  deriving DecidableEq, Repr

/-- Safe-integral-gain state (10_state.md R30). -/
structure SafeGain where
  kiSafeSel : Bool
  safeCyclesLeft : U16
  deriving DecidableEq, Repr

/-- Drive outputs (10_state.md R32): they are registers. -/
structure DriveRegs where
  dutyOut : U16
  pdcA : U16
  pdcB : U16
  ovrEnA : Bool
  ovrEnB : Bool
  ovrLvlA : Bool
  ovrLvlB : Bool
  deriving DecidableEq, Repr

/-- Latched engine fault flags (10_state.md R33). -/
structure EngFlags where
  feedbackReversed : Bool
  outputShorted : Bool
  deriving DecidableEq, Repr

/-- The overload group (10_state.md R40, R41). -/
structure OvlGroup where
  vdsThresholdActive : Bool
  skipNextPulseCount : U16
  state : OvlState
  cycleCount : U16
  resetCount : U16
  retryCount : U16
  event : Bool
  deriving DecidableEq, Repr

/-- One zero-crossing instance: protocol state (10_state.md R51) and sample filter (R52). -/
structure ZcInst where
  zcState : ZcState
  count : U16
  posCount : U16
  negCount : U16
  outputting : Bool
  confirmLeft : U16
  stopReq : Bool
  s0 : U16
  s1 : U16
  s2 : U16
  histFill : U2
  avgPrev : U16
  havePrev : Bool
  deriving DecidableEq, Repr

/-- The input ports (10_state.md R60 to R64): the value sampled by the last event that samples the
port. Not state of the block (R68); the MODEL's own field, so that a meaning can read the arguments of
the event it runs in (notes/assumptions/4.md). -/
structure Ports where
  handler : Handler
  fbIn : S16
  vbusIn : U16
  vbattAvg : U16
  rmsOffset : S16
  acRaw : U16
  iSample : U16
  iCycleAvg : U16
  iAvgValid : Bool
  iRms : U16
  deriving DecidableEq, Repr

/-- Event outputs of one zero-crossing instance (10_state.md R66). -/
structure ZcPulses where
  zcEvent : Bool
  zcFullCycle : Bool
  zcResync : Bool
  deriving DecidableEq, Repr

/-- The event outputs (10_state.md R66), as they stand in the last event. -/
structure Pulses where
  halfCycle : Bool
  fullCycle : Bool
  chg : ZcPulses
  inv : ZcPulses
  deriving DecidableEq, Repr

/-- The events (00_scope.md R6), with the port values each samples. `engTick` and `zcTick` are the
`ETICK` and `ZTICK` lines of the trace notation, the two parts of a `pwm_tick` alone (30_encoding.md
R122; notes/assumptions/14.md). A bus access names a byte address, the number of bytes, and for a write
the value (00_scope.md R18). -/
inductive Event where
  | pwmTick (handler : Handler) (fbIn : S16) (vbusIn vbattAvg : U16) (rmsOffset : S16) (acRaw : U16)
  | engTick (fbIn : S16) (vbusIn vbattAvg : U16) (rmsOffset : S16)
  | zcTick (j : ZcId) (acRaw : U16)
  | sampleTick (iSample iCycleAvg : U16) (iAvgValid : Bool)
  | zcTask (iRms : U16)
  | busWrite (addr : Nat) (bytes : Nat) (value : U32)
  | busRead (addr : Nat) (bytes : Nat)
  | hwReset
  deriving DecidableEq, Repr

/-- The machine's state. -/
structure State where
  /-- CFG (00_scope.md R8), constant; the MODEL's own field (notes/assumptions/2.md). -/
  cfg : Cfg
  /-- `cmd_latch` (10_state.md R23). -/
  cmdLatch : U8
  seq : SeqState
  ramp : RampState
  pid : PidState
  flatTop : FlatTop
  /-- `fb_dly`, newest first (10_state.md R27). -/
  fbDly : List S17
  rebal : RebalState
  satDet : SatState
  safe : SafeGain
  /-- `fb_zero_count` (10_state.md R31). -/
  fbZeroCount : U16
  drive : DriveRegs
  flags : EngFlags
  ovl : OvlGroup
  zcChg : ZcInst
  zcInv : ZcInst
  /-- The event outputs (10_state.md R66). -/
  pulses : Pulses
  /-- The input ports; the MODEL's own field. -/
  ports : Ports
  /-- What a register read returned, if the last event was one; the MODEL's own field
  (notes/assumptions/5.md). -/
  busRdata : Option U32
  /-- The events still to come, in their order (60_exceptions.md R412); the MODEL's own field
  (notes/assumptions/1.md). -/
  events : List Event
  deriving DecidableEq, Repr

/-- Why the model stops with a fault. The block itself has no trap (60_exceptions.md R414). -/
inductive Fault where
  /-- Raised by the table lookup of an active `eng_tick` at an index outside the table, which the spec
  says cannot occur (20_memory.md R71, 93_implementation_defined.md U8). Safe: the hardware has no
  such state, and no state that meets `Safety.Inv` raises it. -/
  | tableIndexOutOfRange (idx : Nat)
  deriving DecidableEq, Repr

/-- Why the model does not accept a state or an instruction. -/
inductive Refusal where
  /-- Raised by `exec` for an instruction that has no meaning yet. Safe. No arm raises it. -/
  | notModelled (mnemonic : String)
  /-- Raised by `step` for a parameter record that breaks a constraint: the model refuses it
  (00_scope.md R15, 93_implementation_defined.md U1). Safe: such a record is outside the spec. -/
  | invalidConfig
  deriving DecidableEq, Repr

/-- No event output pulsed. -/
def ZcPulses.zero : ZcPulses := ⟨false, false, false⟩

/-- No event output pulsed. -/
def Pulses.zero : Pulses := ⟨false, false, ZcPulses.zero, ZcPulses.zero⟩

/-- An instance after `hw_reset` (70_reset_and_hazards.md R450). -/
def ZcInst.reset : ZcInst where
  zcState := .init
  count := 0
  posCount := 0
  negCount := 0
  outputting := false
  confirmLeft := 0
  stopReq := false
  s0 := 0
  s1 := 0
  s2 := 0
  histFill := 0
  avgPrev := 0
  havePrev := false

/-- The drive outputs after `hw_reset`: both pairs forced low (70_reset_and_hazards.md R450). -/
def DriveRegs.reset : DriveRegs := ⟨0, 0, 0, true, true, false, false⟩

/-- The overload group after `hw_reset` (70_reset_and_hazards.md R450). -/
def OvlGroup.reset : OvlGroup := ⟨false, 0, .none, 0, 0, 0, false⟩

/-- The ports before any event has sampled them. DESIGN CHOICE (notes/assumptions/4.md): no rule reads
a port before its event has sampled it. -/
def Ports.reset : Ports := ⟨.default, 0, 0, 0, 0, 0, 0, 0, false, 0⟩

/-- The state after `hw_reset` with the parameter record `c` (70_reset_and_hazards.md R450, 10_state.md
R69): everything zero but `ovr_en_a` and `ovr_en_b`. -/
def State.resetWith (c : Cfg) : State where
  cfg := c
  cmdLatch := 0
  seq := ⟨.idle, .positive, 0⟩
  ramp := ⟨0, 0, 0, 0, 0⟩
  pid := ⟨0, 0, 0⟩
  flatTop := ⟨false, 0⟩
  fbDly := List.replicate c.fbDelay 0
  rebal := ⟨0, 0, 0, 0⟩
  satDet := ⟨0, 0, 0, false, .positive, 0⟩
  safe := ⟨false, 0⟩
  fbZeroCount := 0
  drive := DriveRegs.reset
  flags := ⟨false, false⟩
  ovl := OvlGroup.reset
  zcChg := ZcInst.reset
  zcInv := ZcInst.reset
  pulses := Pulses.zero
  ports := Ports.reset
  busRdata := Option.none
  events := []

/-- The machine right after reset. CFG is an open parameter: DESIGN CHOICE FIX8, the spec's own fixture
(notes/assumptions/2.md). -/
def State.reset : State := State.resetWith Cfg.fix8

end Sys2Proof.Machine
end

