-- ==== Sys2Proof/Machine/Operands.lean ====
section
/-! DEFINITION. The arithmetic of 00_scope.md R16 and 41_q16_arithmetic.md: exact on mathematical
integers, then saturated into the container of the result. Nothing wraps and nothing is flagged (R182).
The Q16 operations are internal functions with no encoding (30_encoding.md R100). -/

namespace Sys2Proof.Machine

/-- `sat(v, lo, hi)` (00_scope.md R16(g)). -/
def sat (v lo hi : Int) : Int := if v < lo then lo else if v > hi then hi else v

/-- `tdiv(a, b)`: the quotient truncated toward zero (00_scope.md R16(e), 41 R181). -/
def tdiv (a b : Int) : Int := Int.tdiv a b

/-- `sat_s32`, stored. -/
def satS32 (v : Int) : S32 := BitVec.ofInt 32 (sat v (-2147483648) 2147483647)

/-- `sat_u16`, stored. -/
def satU16 (v : Int) : U16 := BitVec.ofInt 16 (sat v 0 65535)

/-- `sat_u32`, stored. -/
def satU32 (v : Int) : U32 := BitVec.ofInt 32 (sat v 0 4294967295)

/-- Saturation into an s16 (92_eei_decisions.md D12; DEDUCED, notes/assumptions/13.md). -/
def satS16 (v : Int) : S16 := BitVec.ofInt 16 (sat v (-32768) 32767)

/-- A counter's `+ 1` in a u16, saturating (41 R191(c), 92 D12). -/
def incU16 (x : U16) : U16 := satU16 ((x.toNat : Int) + 1)

/-- A down-counter's `- 1` in a u16, which stops at 0 (41 R191(c)). -/
def decU16 (x : U16) : U16 := satU16 ((x.toNat : Int) - 1)

/-- An accumulator's addition, `sat_u32` (41 R191(b)). -/
def accU32 (acc : U32) (x : U16) : U32 := satU32 ((acc.toNat : Int) + (x.toNat : Int))

/-- `q16_from_int(n)` (41 R183). -/
def q16FromInt (n : Int) : S32 := satS32 (n * 65536)

/-- `q16_int(p)` (41 R184); the quotient always lies in s32. -/
def q16Int (p : S32) : S32 := satS32 (tdiv p.toInt 65536)

/-- `q16_mul(a, b)` (41 R185). -/
def q16Mul (a b : S32) : S32 := satS32 (tdiv (a.toInt * b.toInt) 65536)

/-- The value of `q16_mul_int(g, x)` on mathematical integers: `sat_s32(tdiv(g · x, 65536))` (41 R186). -/
def q16MulIntVal (g x : Int) : Int := sat (tdiv (g * x) 65536) (-2147483648) 2147483647

/-- `q16_mul_int(g, x)`: Q16 gain times integer, stored (41 R186). -/
def q16MulInt (g x : S32) : S32 := BitVec.ofInt 32 (q16MulIntVal g.toInt x.toInt)

/-- `q16_div(a, b)` (41 R187). No result for `b = 0`: the call is refused (93 U5,
notes/assumptions/17.md). -/
def q16Div (a b : S32) : Option S32 :=
  if b.toInt = 0 then none else some (satS32 (tdiv (a.toInt * 65536) b.toInt))

/-- `mul32(a, b)`: the exact s64 product (41 R188). -/
def mul32 (a b : S32) : BitVec 64 := BitVec.ofInt 64 (a.toInt * b.toInt)

/-- `div32(a, b)` (41 R188). No result for `b = 0` (93 U5). -/
def div32 (a b : S32) : Option S32 :=
  if b.toInt = 0 then none else some (satS32 (tdiv a.toInt b.toInt))

/-- The first loop of `isqrt32` (41 R189): how many bits `4^k` remain once those above `n` are
skipped. -/
def isqrtStart (n : Nat) : Nat → Nat
  | 0 => 0
  | k + 1 => if 4 ^ k > n then isqrtStart n k else k + 1

/-- The second loop of `isqrt32` (41 R189), one bit `4^k` a round. -/
def isqrtLoop : Nat → Nat → Nat → Nat
  | 0, _, res => res
  | k + 1, n, res =>
    if n ≥ res + 4 ^ k then isqrtLoop k (n - (res + 4 ^ k)) (res / 2 + 4 ^ k)
    else isqrtLoop k n (res / 2)

/-- `isqrt32(n)`: the floor square root, bit by bit from `2^30 = 4^15` (41 R189). -/
def isqrt32 (n : U32) : U16 :=
  BitVec.ofNat 16 (isqrtLoop (isqrtStart n.toNat 16) n.toNat 0)

/-- `ScaleByVBatt(x, vbatt)` (41 R190): the ratio nominal over measured in Q16; a zero divisor means
no scaling. -/
def scaleByVBatt (c : Cfg) (x vbatt : U16) : U16 :=
  if vbatt = 0 then x
  else satU16 ((x.toNat * (c.vbattNominal.toNat * 65536 / vbatt.toNat) / 65536 : Nat) : Int)

/-- The larger of 1 and the scaled increment (40_engine_commands.md R145). -/
def atLeastOne (x : U16) : U16 := if x = 0 then 1 else x

end Sys2Proof.Machine
end

