-- ==== Sys2Proof/Machine/Flags.lean ====
section
/-! DEFINITION. The status flags (10_state.md R45) and the packed registers of the register space
(20_memory.md R74, 30_encoding.md R104 to R117). There are no arithmetic condition codes (10 R45). Every
register is a view of the state; no read has a side effect (20 R78). -/

namespace Sys2Proof.Machine

/-- The code of `eng_state` (30_encoding.md R104). -/
def engCode : EngState → BitVec 3
  | .idle => 0
  | .softStart => 1
  | .normal => 2
  | .ping => 3
  | .softStop => 4

/-- The code of `phase` (30_encoding.md R105). -/
def phaseCode : Phase → BitVec 1
  | .positive => 0
  | .negative => 1

/-- The code of `ovl_state` (30_encoding.md R106). -/
def ovlCode : OvlState → BitVec 2
  | .none => 0
  | .shortOverload => 1
  | .sustainedOverload => 2
  | .shutdown => 3

/-- The code of `zc_state(j)` (30_encoding.md R107). -/
def zcCode : ZcState → BitVec 4
  | .init => 0
  | .posWaitNeg1 => 1
  | .negWaitPos1 => 2
  | .posWaitNeg2 => 3
  | .negWaitPos2 => 4
  | .confirmNegPos => 5
  | .posDetectOc => 6
  | .confirmPosNeg => 7
  | .negDetectOc => 8

/-- The code of `handler` (30_encoding.md R108). -/
def handlerCode : Handler → BitVec 2
  | .default => 0
  | .inverter => 1
  | .charger => 2
  | .bootCharge => 3

/-- The code of the instance index (30_encoding.md R109). -/
def zcIdCode : ZcId → BitVec 1
  | .chg => 0
  | .inv => 1

/-- A flag as one bit. -/
def bit (b : Bool) : BitVec 1 := BitVec.ofBool b

/-- STATUS (10_state.md R45): bit 9 CMD_PENDING down to bit 0 ACTIVE. -/
def statusWord (s : State) : U32 :=
  (0 : BitVec 22) ++ bit (s.cmdLatch != 0) ++ bit s.ovl.vdsThresholdActive ++ bit s.flatTop.active
    ++ bit s.zcInv.outputting ++ bit s.zcChg.outputting ++ bit s.flags.outputShorted
    ++ bit s.flags.feedbackReversed ++ bit (s.ovl.state == .shutdown) ++ bit s.ovl.event
    ++ bit (s.seq.engState != .idle)

/-- The named registers (20_memory.md R74), without the two indexed windows. -/
inductive Reg where
  | cmd
  | status
  | engState
  | ramp
  | integralSum
  | prevError
  | savedIntegral
  | flatTop
  | duty
  | drive
  | ovlCtrl
  | ovlState
  | ovlCount
  | ovlRetry
  | override
  | zcCtrl
  | zcStateChg
  | zcLenChg
  | zcStateInv
  | zcLenInv
  | rebalAcc
  | rebalPos
  | rebalNeg
  | satAcc
  | satPos
  | satNeg
  | satReduce
  | safe
  | zcFilt0Chg
  | zcFilt1Chg
  | zcFilt2Chg
  | zcFilt0Inv
  | zcFilt1Inv
  | zcFilt2Inv
  deriving DecidableEq, Repr

/-- The offset of each named register (20_memory.md R74). -/
def regOffset : Reg → Nat
  | .cmd => 0x00
  | .status => 0x04
  | .engState => 0x08
  | .ramp => 0x0C
  | .integralSum => 0x10
  | .prevError => 0x14
  | .savedIntegral => 0x18
  | .flatTop => 0x1C
  | .duty => 0x20
  | .drive => 0x24
  | .ovlCtrl => 0x28
  | .ovlState => 0x2C
  | .ovlCount => 0x30
  | .ovlRetry => 0x34
  | .override => 0x38
  | .zcCtrl => 0x3C
  | .zcStateChg => 0x40
  | .zcLenChg => 0x44
  | .zcStateInv => 0x48
  | .zcLenInv => 0x4C
  | .rebalAcc => 0x50
  | .rebalPos => 0x54
  | .rebalNeg => 0x58
  | .satAcc => 0x5C
  | .satPos => 0x60
  | .satNeg => 0x64
  | .satReduce => 0x68
  | .safe => 0x6C
  | .zcFilt0Chg => 0x70
  | .zcFilt1Chg => 0x74
  | .zcFilt2Chg => 0x78
  | .zcFilt0Inv => 0x80
  | .zcFilt1Inv => 0x84
  | .zcFilt2Inv => 0x88

/-- Every named register, in the order of the map. -/
def regList : List Reg :=
  [.cmd, .status, .engState, .ramp, .integralSum, .prevError, .savedIntegral, .flatTop, .duty, .drive,
   .ovlCtrl, .ovlState, .ovlCount, .ovlRetry, .override, .zcCtrl, .zcStateChg, .zcLenChg, .zcStateInv,
   .zcLenInv, .rebalAcc, .rebalPos, .rebalNeg, .satAcc, .satPos, .satNeg, .satReduce, .safe,
   .zcFilt0Chg, .zcFilt1Chg, .zcFilt2Chg, .zcFilt0Inv, .zcFilt1Inv, .zcFilt2Inv]

/-- ZC_STATE_j (30_encoding.md R115). -/
def zcStateWord (z : ZcInst) : U32 :=
  z.count ++ (0 : BitVec 10) ++ bit z.stopReq ++ bit z.outputting ++ zcCode z.zcState

/-- ZC_LEN_j (30_encoding.md R115). -/
def zcLenWord (z : ZcInst) : U32 := z.negCount ++ z.posCount

/-- ZC_FILT0_j (30_encoding.md R115). -/
def zcFilt0Word (z : ZcInst) : U32 := z.s1 ++ z.s0

/-- ZC_FILT1_j (30_encoding.md R115). -/
def zcFilt1Word (z : ZcInst) : U32 := z.avgPrev ++ z.s2

/-- ZC_FILT2_j (30_encoding.md R115). -/
def zcFilt2Word (z : ZcInst) : U32 := z.confirmLeft ++ (0 : BitVec 13) ++ bit z.havePrev ++ z.histFill

/-- What a read of a named register returns: the field layouts of 30_encoding.md R110 to R116. A
write-only register reads 0 (20_memory.md R77). -/
def regView (s : State) : Reg → U32
  | .cmd => s.cmdLatch.setWidth 32
  | .status => statusWord s
  | .engState =>
      s.seq.idx ++ (0 : BitVec 8) ++ s.ramp.normHalves ++ bit s.safe.kiSafeSel ++ bit s.flatTop.active
        ++ phaseCode s.seq.phase ++ engCode s.seq.engState
  | .ramp => s.ramp.rampInc ++ s.ramp.multiplier
  | .integralSum => s.pid.integralSum
  | .prevError => s.pid.prevError
  | .savedIntegral => s.pid.savedIntegralSum
  | .flatTop => s.ramp.hcCount ++ s.flatTop.endIdx
  | .duty => s.rebal.zcOffset ++ s.drive.dutyOut
  | .drive => s.drive.pdcB ++ s.drive.pdcA
  | .ovlCtrl => 0
  | .ovlState =>
      s.ovl.skipNextPulseCount ++ (0 : BitVec 12) ++ bit s.ovl.event ++ bit s.ovl.vdsThresholdActive
        ++ ovlCode s.ovl.state
  | .ovlCount => s.ovl.resetCount ++ s.ovl.cycleCount
  | .ovlRetry => s.ovl.retryCount.setWidth 32
  | .override =>
      (0 : BitVec 28) ++ bit s.drive.ovrLvlB ++ bit s.drive.ovrEnB ++ bit s.drive.ovrLvlA
        ++ bit s.drive.ovrEnA
  | .zcCtrl => 0
  | .zcStateChg => zcStateWord s.zcChg
  | .zcLenChg => zcLenWord s.zcChg
  | .zcStateInv => zcStateWord s.zcInv
  | .zcLenInv => zcLenWord s.zcInv
  | .rebalAcc => s.rebal.dutyAcc
  | .rebalPos => s.rebal.dutySumPos
  | .rebalNeg => s.rebal.dutySumNeg
  | .satAcc => s.satDet.satAcc
  | .satPos => s.satDet.satSumPos
  | .satNeg => s.satDet.satSumNeg
  | .satReduce =>
      (0 : BitVec 14) ++ phaseCode s.satDet.reducePhase ++ bit s.satDet.reduceActive
        ++ s.satDet.reduceAmt
  | .safe => s.fbZeroCount ++ s.safe.safeCyclesLeft
  | .zcFilt0Chg => zcFilt0Word s.zcChg
  | .zcFilt1Chg => zcFilt1Word s.zcChg
  | .zcFilt2Chg => zcFilt2Word s.zcChg
  | .zcFilt0Inv => zcFilt0Word s.zcInv
  | .zcFilt1Inv => zcFilt1Word s.zcInv
  | .zcFilt2Inv => zcFilt2Word s.zcInv

/-- The indexed windows and the reserved offsets (20_memory.md R74, R76; 30_encoding.md R117): FB_DLY[k]
sign-extended at 0x400 + 4k, TABLE_WIN[i] at 0x40000 + 4i, 0 elsewhere. -/
def windowRead (s : State) (offset : Nat) : U32 :=
  if 0x400 ≤ offset ∧ offset < 0x800 then
    match s.fbDly[(offset - 0x400) / 4]? with
    | some v => v.signExtend 32
    | none => 0
  else if 0x40000 ≤ offset ∧ offset < 0x80000 then
    match s.cfg.table[(offset - 0x40000) / 4]? with
    | some t => t
    | none => 0
  else 0

/-- The word at an aligned offset of the register space. -/
def regRead (s : State) (offset : Nat) : U32 :=
  match regList.find? (fun r => regOffset r == offset) with
  | some r => regView s r
  | none => windowRead s offset

/-- The byte at an offset of the register space, little-endian (20_memory.md R73). -/
def regByte (s : State) (offset : Nat) : U8 :=
  (regRead s (offset / 4 * 4)).extractLsb' (8 * (offset % 4)) 8

/-- The register offset a bus access reaches, if it is performed: 32 bits wide, a multiple of 4, inside
0 to 0x7FFFC from REG_BASE (20_memory.md R75). -/
def busOffset (c : Cfg) (addr bytes : Nat) : Option Nat :=
  if bytes = 4 ∧ c.regBase ≤ addr ∧ (addr - c.regBase) % 4 = 0 ∧ addr - c.regBase ≤ 0x7FFFC then
    some (addr - c.regBase)
  else none

/-- `MemRead(addr, n)` (00_scope.md R18): an access that is not performed returns 0 (20_memory.md R75,
93 U2). -/
def busReadValue (s : State) (addr bytes : Nat) : U32 :=
  match busOffset s.cfg addr bytes with
  | some offset => regRead s offset
  | none => 0

end Sys2Proof.Machine
end

