-- ==== Sys2Proof/Machine/Ops.lean ====
section
/-! DEFINITION. The operations the meanings share: drive outputs, the clears, the start of the engine,
raising a fault condition and leaving it, and the selection of a zero-crossing instance. -/

namespace Sys2Proof.Machine

/-- The outcome of one event or instruction. -/
abbrev Out := Host.Outcome State Fault Refusal

/-- Go on with a next state; a fault or a refusal ends the event. -/
def andThen (o : Out) (f : State → Out) : Out :=
  match o with
  | .next s => f s
  | .fault r => .fault r
  | .refused r => .refused r

/-! ### The two zero-crossing instances -/

/-- The parameters of instance `j`. -/
def zcCfg (c : Cfg) : ZcId → ZcCfg
  | .chg => c.zcChg
  | .inv => c.zcInv

/-- Instance `j`. -/
def getZc (s : State) : ZcId → ZcInst
  | .chg => s.zcChg
  | .inv => s.zcInv

/-- Instance `j` replaced; the instances share no state (10_state.md R50). -/
def setZc (j : ZcId) (z : ZcInst) (s : State) : State :=
  match j with
  | .chg => { s with zcChg := z }
  | .inv => { s with zcInv := z }

/-- The event outputs of instance `j` replaced. -/
def setZcPulses (j : ZcId) (p : ZcPulses) (s : State) : State :=
  match j with
  | .chg => { s with pulses.chg := p }
  | .inv => { s with pulses.inv := p }

/-- Instance `j` and its event outputs replaced. -/
def setZcOut (j : ZcId) (o : ZcInst × ZcPulses) (s : State) : State :=
  setZcPulses j o.2 (setZc j o.1 s)

/-- `reset_to_init()` (45_zero_crossing_fsm.md R318). -/
def resetToInit (z : ZcInst) : ZcInst :=
  { z with zcState := .init, count := 0, posCount := 0, negCount := 0, outputting := false, confirmLeft := 0 }

/-- `resync()`: `reset_to_init()` and the resync pulse (45 R318). -/
def resync (z : ZcInst) : ZcInst × ZcPulses := (resetToInit z, { ZcPulses.zero with zcResync := true })

/-! ### Drive outputs (44_clamp_saturation.md section 5) -/

/-- `drive_off()`: both pairs forced to a static low (44 R290). -/
def driveOff (s : State) : State :=
  { s with drive.ovrEnA := true, drive.ovrLvlA := false, drive.pdcA := 0,
           drive.ovrEnB := true, drive.ovrLvlB := false, drive.pdcB := 0 }

/-- `drive(d)`: the pair of the phase under PWM control, the other forced low (44 R291). -/
def driveDuty (d : U16) (s : State) : State :=
  match s.seq.phase with
  | .positive =>
    { s with drive.ovrEnA := false, drive.ovrLvlA := false, drive.pdcA := d,
             drive.ovrEnB := true, drive.ovrLvlB := false, drive.pdcB := 0 }
  | .negative =>
    { s with drive.ovrEnB := false, drive.ovrLvlB := false, drive.pdcB := d,
             drive.ovrEnA := true, drive.ovrLvlA := false, drive.pdcA := 0 }

/-- `drive_step(duty)` (44 R292, R293). The applied duty is left in `duty_out`. -/
def driveStep (duty : U16) (s : State) : State :=
  if s.ovl.skipNextPulseCount = 0 then
    { driveDuty duty s with drive.dutyOut := duty }
  else
    { driveOff { s with ovl.skipNextPulseCount := decU16 s.ovl.skipNextPulseCount } with drive.dutyOut := 0 }

/-! ### The engine's clears (40_engine_commands.md section 2) -/

/-- `pid_phase_clear()` (40 R144). -/
def pidPhaseClear (s : State) : State :=
  { s with
    seq.phase := .positive, seq.idx := 0
    pid := ⟨0, 0, 0⟩
    flatTop := ⟨false, 0⟩
    ramp := ⟨0, 0, 0, 0, 0⟩
    fbDly := s.fbDly.map fun _ => 0
    rebal.dutyAcc := 0, rebal.dutySumPos := 0, rebal.dutySumNeg := 0
    satDet := ⟨0, 0, 0, false, .positive, 0⟩
    fbZeroCount := 0
    drive.dutyOut := 0 }

/-- `idle_entry()` (40 R141). -/
def idleEntry (s : State) : State :=
  driveOff { pidPhaseClear s with seq.engState := .idle }

/-- `engine_clear()` (40 R140). -/
def engineClear (s : State) : State :=
  { idleEntry s with rebal.zcOffset := 0, safe.kiSafeSel := false }

/-! ### Counting half-cycles (40_engine_commands.md R160, R163) -/

/-- The half-cycles completed in SOFT_START or PING, on which R160 and R163 compare. -/
def halvesDone (r : RampState) : Nat := r.hcCount.toNat + r.hcOver.toNat

/-- `hc_count <- hc_count + 1`. The u16 saturates (92 D12); what it cannot hold is counted beside it, so
that a ping of more than 65535 half-cycles ends too (70 R463; DEDUCED, notes/assumptions/12.md). -/
def countHalf (r : RampState) : RampState :=
  { r with
    hcCount := incU16 r.hcCount
    hcOver := if r.hcCount.toNat = 65535 then incU16 r.hcOver else r.hcOver }

/-! ### Starting (40_engine_commands.md R142, R145) -/

/-- `start_allowed()` (40 R142). -/
def startAllowed (s : State) : Bool :=
  !s.flags.feedbackReversed && !s.flags.outputShorted && s.ovl.state != .shutdown

/-- The three start commands of `apply_start(c)`. -/
inductive StartCmd where
  | softStart
  | start
  | ping
  deriving DecidableEq, Repr

/-- `ki_safe_sel <- (safe_cycles_left > 0) ? 1 : 0` (43_pid_corrector.md R242). -/
def selectGain (s : State) : State := { s with safe.kiSafeSel := s.safe.safeCyclesLeft != 0 }

/-- The state `apply_start(c)` enters. -/
def startTarget : StartCmd → EngState
  | .softStart => .softStart
  | .start => .normal
  | .ping => .ping

/-- `ramp_inc` of `apply_start(c)`: at least 1, so that a later SOFT_STOP ends (40 R145). -/
def startRampInc (c : Cfg) (vbatt : U16) : StartCmd → U16
  | .softStart => atLeastOne (scaleByVBatt c c.softStartInc vbatt)
  | .start => atLeastOne (scaleByVBatt c c.softStartInc vbatt)
  | .ping => atLeastOne (scaleByVBatt c c.pingInc vbatt)

/-- `multiplier` of `apply_start(c)`. -/
def startMultiplier (c : Cfg) (vbatt : U16) : StartCmd → U16
  | .softStart => startRampInc c vbatt .softStart
  | .start => scaleByVBatt c c.softStartMaxDuty vbatt
  | .ping => startRampInc c vbatt .ping

/-- `apply_start(c)` (40 R145). -/
def applyStart (k : StartCmd) (s : State) : State :=
  { selectGain (pidPhaseClear s) with
    seq.engState := startTarget k
    ramp.rampInc := startRampInc s.cfg s.ports.vbattAvg k
    ramp.multiplier := startMultiplier s.cfg s.ports.vbattAvg k }

/-! ### Fault conditions: entry, and leaving them -/

/-- The five fault conditions F1 to F5 (60_exceptions.md R400). -/
inductive FaultCond where
  /-- F1 FEEDBACK_REVERSED. -/
  | feedbackReversed
  /-- F2 OUTPUT_SHORTED. -/
  | outputShorted
  /-- F3 OVL_EVENT. -/
  | ovlEvent
  /-- F4 OVL_SHUTDOWN. -/
  | ovlShutdown
  /-- F5 ZC_RESYNC(j). -/
  | zcResync (j : ZcId)
  deriving DecidableEq, Repr

/-- `raise F`: the entry actions of each fault condition (60_exceptions.md R401 to R405). No state is
saved and control goes nowhere (60 R414). -/
def raiseFault (f : FaultCond) (s : State) : State :=
  match f with
  | .feedbackReversed => { s with flags.feedbackReversed := true, seq.engState := .softStop }
  | .outputShorted => { s with flags.outputShorted := true, seq.engState := .softStop }
  | .ovlEvent =>
    { driveOff { s with ovl.skipNextPulseCount := s.cfg.ovl.skipPulses, ovl.event := true } with
      drive.dutyOut := 0 }
  | .ovlShutdown => { s with ovl.state := .shutdown }
  | .zcResync j => setZcOut j (resync (getZc s j)) s

/-- Leaving F1: STATUS bit 3 written 1 (10_state.md R45, 60_exceptions.md R416). -/
def clearFbReversed (s : State) : State := { s with flags.feedbackReversed := false }

/-- Leaving F2: STATUS bit 4 written 1 (10 R45). -/
def clearOutShorted (s : State) : State := { s with flags.outputShorted := false }

/-- `ovl_reset`, leaving F3 and F4: `retry_count` is kept (46_overload.md R379). -/
def ovlResetOp (s : State) : State :=
  { s with ovl := { OvlGroup.reset with retryCount := s.ovl.retryCount } }

/-! ### Other host operations -/

/-- `cmd_write(code)`: the latch takes bits 7:0, nothing else changes (20_memory.md R80). -/
def cmdWrite (v : U32) (s : State) : State := { s with cmdLatch := v.setWidth 8 }

/-- `zc_stop(j)`: the request waits for the next `zc_tick(j)` (20 R82, 45 R319). -/
def zcStopOp (j : ZcId) (s : State) : State := setZc j { getZc s j with stopReq := true } s

/-- `cmd_latch <- NONE`. -/
def emptyLatch (s : State) : State := { s with cmdLatch := 0 }

/-- `hw_reset` (70_reset_and_hazards.md R450). CFG is not state; the events still to come and the
ports lie outside the block (notes/assumptions/24.md). -/
def hwResetOp (s : State) : State :=
  { State.resetWith s.cfg with ports := s.ports, events := s.events }

end Sys2Proof.Machine
end

