-- ==== Sys2Proof/Machine/Engine.lean ====
section
/-! DEFINITION. The datapath of an `eng_tick` after its command has been dealt with: steps C to I of
40_engine_commands.md R150, with the table lookup (42_sine_table_lookup.md), the PID corrector
(43_pid_corrector.md) and the clamp, flat-top, drive and self-tests (44_clamp_saturation.md). -/

namespace Sys2Proof.Machine

/-! ### Step D: lookup and feedback -/

/-- `base`: the table value times the multiplier, integer part (42 R213). -/
def baseDuty (t : U32) (multiplier : U16) : Nat := t.toNat * multiplier.toNat / 65536

/-- `fb_s`: the feedback sample, negated in the NEGATIVE half-cycle (43 R231). -/
def fbSample (s : State) : S17 :=
  match s.seq.phase with
  | .positive => BitVec.ofInt 17 s.ports.fbIn.toInt
  | .negative => BitVec.ofInt 17 (-s.ports.fbIn.toInt)

/-- `fb_used`: the oldest entry of the delay line, or `fb_s` itself if there is no line (43 R232). -/
def fbUsed (s : State) : S17 := (s.fbDly.getLast?).getD (fbSample s)

/-- The line takes `fb_s` and drops its oldest entry (43 R232). -/
def shiftFeedback (s : State) : State := { s with fbDly := (fbSample s :: s.fbDly).dropLast }

/-! ### Step E: feedback self-tests at the peak -/

/-- The near-zero test of NORMAL (44 R297). -/
def nearZeroTest (fbS : S17) (s : State) : State :=
  let s1 := { s with
      fbZeroCount := if fbS.toInt.natAbs < s.cfg.noiseBand.toNat then incU16 s.fbZeroCount else 0 }
  if s.cfg.fbZeroCountMax.toNat ≤ s1.fbZeroCount.toNat then raiseFault .outputShorted s1 else s1

/-- The reversed-winding test of SOFT_START (44 R296). -/
def reversedTest (fbS : S17) (s : State) : State :=
  if fbS.toInt < -(s.cfg.noiseBand.toNat : Int) then raiseFault .feedbackReversed s else s

/-- `if idx = PEAK_IDX: peak_tests(fb_s)` (40 R150 step E, 44 R295). -/
def peakTests (fbS : S17) (s : State) : State :=
  if s.seq.idx.toNat = s.cfg.peakIdx then
    match s.seq.engState with
    | .softStart => reversedTest fbS s
    | .normal => nearZeroTest fbS s
    | _ => s
  else s

/-! ### Step F: the duty -/

/-- Step 1 of 43 R234: an expired flat-top window closes (44 R266). -/
def closeFlatTop (s : State) : State :=
  if s.flatTop.active && decide (s.flatTop.endIdx.toNat ≤ s.seq.idx.toNat) then
    { s with flatTop.active := false, pid.integralSum := s.pid.savedIntegralSum }
  else s

/-- `setpoint` (43 R235): non-negative, so the shift is a division. -/
def pidSetpoint (c : Cfg) (t : U32) (rmsOffset : S16) : Nat :=
  t.toNat * ((c.rmsSetpoint.toNat : Int) + rmsOffset.toInt).toNat / 65536

/-- `err` (43 R236). -/
def pidError (c : Cfg) (t : U32) (fb : S17) (rmsOffset : S16) : S32 :=
  satS32 ((pidSetpoint c t rmsOffset : Int) - fb.toInt)

/-- Step 3 of 43 R234: the integral sum, held at 0 while flat-topped, clamped to ±I_LIMIT (43 R238). -/
def integrate (err : S32) (s : State) : State :=
  if s.flatTop.active then { s with pid.integralSum := 0 }
  else
    { s with
      pid.integralSum :=
        satS32 (sat (s.pid.integralSum.toInt + err.toInt) (-s.cfg.iLimit.toInt) s.cfg.iLimit.toInt) }

/-- The integral gain in force (43 R242). -/
def gainKi (s : State) : S32 := if s.safe.kiSafeSel then s.cfg.kiSafe else s.cfg.ki

/-- `p_term` (43 R237). -/
def pTerm (err : S32) (s : State) : S32 := q16MulInt s.cfg.kp err

/-- `i_term` (43 R238). -/
def iTerm (s : State) : S32 := q16MulInt (gainKi s) s.pid.integralSum

/-- `d_term` (43 R239), with the error of the tick before. -/
def dTerm (err : S32) (s : State) : S32 :=
  q16MulInt s.cfg.kd (satS32 (err.toInt - s.pid.prevError.toInt))

/-- `duty_raw`: the four addends exactly, saturated once (43 R240). -/
def rawDuty (base : Nat) (err : S32) (s : State) : S32 :=
  satS32 ((base : Int) + (pTerm err s).toInt + (iTerm s).toInt + (dTerm err s).toInt)

/-- Step 6 of 43 R234: flat-top entry (44 R264). -/
def openFlatTop (raw : S32) (s : State) : State :=
  if !s.flatTop.active && decide ((s.cfg.maxDuty.toNat : Int) < raw.toInt)
      && decide (s.seq.idx.toNat ≤ s.cfg.n / 2) then
    { s with
      flatTop.active := true, flatTop.endIdx := satU16 ((s.cfg.n : Int) - s.seq.idx.toNat)
      pid.savedIntegralSum := s.pid.integralSum, pid.integralSum := 0 }
  else s

/-- The min/max clamp (44 R261). -/
def clampDuty (c : Cfg) (v : Int) : U16 := satU16 (sat v c.minDuty.toNat c.maxDuty.toNat)

/-- Step 7 of 43 R234: the flat-top value or the clamp (44 R261, R265). -/
def chooseDuty (raw : S32) (s : State) : U16 :=
  if s.flatTop.active then s.cfg.flatTopDuty else clampDuty s.cfg raw.toInt

/-- Step 8 of 43 R234: the saturation reduction (44 R284). -/
def reduceDuty (d : U16) (s : State) : U16 :=
  if s.satDet.reduceActive && s.seq.phase == s.satDet.reducePhase then
    satU16 (max (s.cfg.minDuty.toNat : Int) ((d.toNat : Int) - s.satDet.reduceAmt.toNat))
  else d

/-- `normal_duty(t, base, fb_used, rms_offset)`: the closed-loop computation of one tick (43 R234). -/
def normalDuty (t : U32) (base : Nat) (fb : S17) (s : State) : State × U16 :=
  let err := pidError s.cfg t fb s.ports.rmsOffset
  let s2 := integrate err (closeFlatTop s)
  let raw := rawDuty base err s2
  let s3 := openFlatTop raw { s2 with pid.prevError := err }
  (s3, reduceDuty (chooseDuty raw s3) s3)

/-- Step F of 40 R150: closed loop in NORMAL, open loop in the other active states (40 R152). -/
def tickDuty (t : U32) (base : Nat) (fb : S17) (s : State) : State × U16 :=
  if s.seq.engState = .normal then normalDuty t base fb s else (s, clampDuty s.cfg base)

/-! ### Step H: accumulators -/

/-- `accumulate(applied, vbus_in)` (44 R270, R280); the applied duty stands in `duty_out`. -/
def accumulate (s : State) : State :=
  { s with
    rebal.dutyAcc := accU32 s.rebal.dutyAcc s.drive.dutyOut
    satDet.satAcc :=
      if s.cfg.satTailStart ≤ s.seq.idx.toNat then accU32 s.satDet.satAcc s.ports.vbusIn
      else s.satDet.satAcc }

/-! ### Step I: advance, half-cycle and full-cycle boundary -/

/-- `rebalance()` (44 R272). -/
def rebalance (s : State) : State :=
  if (s.cfg.rebalanceThreshold.toNat : Int) < (s.rebal.dutySumPos.toNat : Int) - s.rebal.dutySumNeg.toNat then
    { s with
      rebal.zcOffset :=
        satS16 (max (-(s.cfg.zcOffsetMax.toNat : Int)) (s.rebal.zcOffset.toInt - s.cfg.zcOffsetStep.toNat)) }
  else if (s.rebal.dutySumPos.toNat : Int) - s.rebal.dutySumNeg.toNat < -(s.cfg.rebalanceThreshold.toNat : Int) then
    { s with
      rebal.zcOffset :=
        satS16 (min (s.cfg.zcOffsetMax.toNat : Int) (s.rebal.zcOffset.toInt + s.cfg.zcOffsetStep.toNat)) }
  else s

/-- `diff` of the saturation detector, signed and exact (44 R282). -/
def satDiff (s : State) : Int := (s.satDet.satSumPos.toNat : Int) - s.satDet.satSumNeg.toNat

/-- No reduction in force (44 R282, 42 R216); the phase bit keeps its value. -/
def satIdle (s : State) : State := { s with satDet.reduceActive := false, satDet.reduceAmt := 0 }

/-- `saturation_detect()` (44 R282). `abs(diff)` may exceed an s32; the product is exact before it
saturates (DEDUCED, notes/assumptions/22.md). -/
def saturationDetect (s : State) : State :=
  if s.cfg.satThreshold.toNat < (satDiff s).natAbs then
    { s with
      satDet.reduceActive := true
      satDet.reducePhase := if satDiff s < 0 then .positive else .negative
      satDet.reduceAmt :=
        satU16 (q16MulIntVal s.cfg.saturationDutyGain.toInt ((satDiff s).natAbs : Int)) }
  else satIdle s

/-- `full_cycle_actions(was_normal)` (42 R216). -/
def fullCycleActions (wasNormal : Bool) (s : State) : State :=
  let s1 := selectGain
    (if wasNormal then { s with safe.safeCyclesLeft := decU16 s.safe.safeCyclesLeft } else s)
  if s1.ramp.normHalves.toNat = 2 then saturationDetect (rebalance s1) else satIdle s1

/-- The end of `boundary()`: a full cycle has ended if the new phase is POSITIVE (42 R215). -/
def closeCycle (wasNormal : Bool) (s : State) : State :=
  if s.seq.phase = .positive then
    if s.seq.engState = .normal then fullCycleActions wasNormal { s with pulses.fullCycle := true }
    else { s with pulses.fullCycle := true }
  else s

/-- `norm_halves <- was_normal ? min(2, norm_halves + 1) : 0` (42 R215). -/
def nextNormHalves (wasNormal : Bool) (n : U2) : U2 :=
  if wasNormal then BitVec.ofNat 2 (min 2 (n.toNat + 1)) else 0

/-- The other phase. -/
def otherPhase : Phase → Phase
  | .positive => .negative
  | .negative => .positive

/-- The common part of `boundary()` (42 R215). -/
def boundaryCommon (s : State) : State :=
  { s with
    seq.idx := 0, seq.phase := otherPhase s.seq.phase
    pid := ⟨0, 0, 0⟩
    flatTop := ⟨false, 0⟩
    rebal.dutySumPos := if s.seq.phase = .positive then s.rebal.dutyAcc else s.rebal.dutySumPos
    rebal.dutySumNeg := if s.seq.phase = .positive then s.rebal.dutySumNeg else s.rebal.dutyAcc
    rebal.dutyAcc := 0
    satDet.satSumPos := if s.seq.phase = .positive then s.satDet.satAcc else s.satDet.satSumPos
    satDet.satSumNeg := if s.seq.phase = .positive then s.satDet.satSumNeg else s.satDet.satAcc
    satDet.satAcc := 0
    pulses.halfCycle := true
    ramp.normHalves := nextNormHalves (s.seq.engState == .normal) s.ramp.normHalves }

/-- The multiplier one step up, saturated (40 R160, R163). -/
def rampUp (s : State) : U16 := satU16 ((s.ramp.multiplier.toNat : Int) + s.ramp.rampInc.toNat)

/-- SOFT_START at a half-cycle boundary (40 R160). -/
def softStartBoundary (s : State) : State :=
  if s.cfg.softStartCycles.toNat ≤ halvesDone (countHalf s.ramp) then
    selectGain { s with
      seq.engState := .normal
      ramp := { countHalf s.ramp with
        multiplier := scaleByVBatt s.cfg s.cfg.softStartMaxDuty s.ports.vbattAvg } }
  else { s with ramp := { countHalf s.ramp with multiplier := rampUp s } }

/-- The multiplier one step down, not below 0 (40 R163, R165). -/
def rampDown (s : State) : U16 := satU16 ((s.ramp.multiplier.toNat : Int) - s.ramp.rampInc.toNat)

/-- The end of the burst or of the ramp-down: `idle_entry(); pulse half_cycle_event; return` (40 R163,
R165). -/
def endRun (s : State) : State := { idleEntry s with pulses.halfCycle := true }

/-- PING at a half-cycle boundary (40 R163): over after 2·PING_RAMP_HC half-cycles, whatever that number
(70 R463). -/
def pingBoundary (s : State) : State :=
  let r := countHalf s.ramp
  let u := s.cfg.pingRampHc.toNat
  if 2 * u ≤ halvesDone r then endRun { s with ramp := r }
  else if halvesDone r < u then closeCycle false { s with ramp := { r with multiplier := rampUp s } }
  else if u < halvesDone r then closeCycle false { s with ramp := { r with multiplier := rampDown s } }
  else closeCycle false { s with ramp := r }

/-- SOFT_STOP at a half-cycle boundary (40 R165). -/
def softStopBoundary (s : State) : State :=
  if rampDown s = 0 then endRun { s with ramp.multiplier := rampDown s }
  else closeCycle false { s with ramp.multiplier := rampDown s }

/-- `boundary(vbatt_avg)`: the half-cycle boundary (42 R215). -/
def boundary (s : State) : State :=
  match s.seq.engState with
  | .softStart => closeCycle false (softStartBoundary (boundaryCommon s))
  | .ping => pingBoundary (boundaryCommon s)
  | .softStop => softStopBoundary (boundaryCommon s)
  | .normal => closeCycle true (boundaryCommon s)
  | .idle => closeCycle false (boundaryCommon s)

/-- Step I of 40 R150 (42 R214). -/
def advance (s : State) : State :=
  if s.seq.idx.toNat + 1 = s.cfg.n then boundary s else { s with seq.idx := incU16 s.seq.idx }

/-! ### The tick -/

/-- Steps D to I of 40 R150 with the table entry `t` of the index. -/
def activeTick (t : U32) (s : State) : State :=
  let p := tickDuty t (baseDuty t s.ramp.multiplier) (fbUsed s) (peakTests (fbSample s) (shiftFeedback s))
  advance (accumulate (driveStep p.2 p.1))

/-- Step C of 40 R150: an IDLE tick (40 R151). -/
def idleTick (s : State) : State := { driveOff s with drive.dutyOut := 0 }

/-- Steps C to I of 40 R150. A lookup outside the table cannot occur (20_memory.md R71) and faults in
the model (notes/assumptions/8.md). -/
def finishTick (s : State) : Out :=
  if s.seq.engState = .idle then .next (idleTick s)
  else
    match s.cfg.table[s.seq.idx.toNat]? with
    | some t => .next (activeTick t s)
    | none => .fault (.tableIndexOutOfRange s.seq.idx.toNat)

end Sys2Proof.Machine
end

