-- ==== Sys2Proof/Machine/Commands.lean ====
section
/-! DEFINITION. The seven commands (40_engine_commands.md section 3). A command has no effect when it is
written (R130): its meaning is the whole `eng_tick` that finds it in the latch (R150), with the port
values of that tick in `ports` (notes/assumptions/6.md). -/

namespace Sys2Proof.Machine

/-- `pulse nothing yet`: the engine's event outputs default to 0 (40 R150). -/
def beginTick (s : State) : State := { s with pulses.halfCycle := false, pulses.fullCycle := false }

/-- RESET and STOP: `engine_clear(); cmd_latch <- NONE; return` (40 R131, R137). -/
def clearTick (s : State) : Out := .next (emptyLatch (engineClear (beginTick s)))

/-- Every other command: the forced stop on overload shutdown (40 R143), else what step B makes of the
command, then steps C to I of 40 R150. -/
def commandTick (stepB : State → State) (s : State) : Out :=
  if s.ovl.state = .shutdown ∧ s.seq.engState ≠ .idle then .next (engineClear (beginTick s))
  else finishTick (stepB (beginTick s))

/-- The start of a new full cycle, NORMAL's safe transition point (40 R132). -/
def atCycleStart (s : State) : Bool := s.seq.phase == .positive && s.seq.idx == 0

/-- Step B with a start command: applied in IDLE if a start is allowed, discarded there if not, discarded
at the start of a full cycle in NORMAL, left in the latch elsewhere (40 R132, R133). The flags are tested in
this tick (40 R142, R150), so a start that waited through a fault is applied if the fault was cleared before
it, although 70 R462 says that a start command never survives a fault (DEDUCED, notes/assumptions/26.md). -/
def acceptStart (k : StartCmd) (s : State) : State :=
  match s.seq.engState with
  | .idle => emptyLatch (if startAllowed s then applyStart k s else s)
  | .normal => if atCycleStart s then emptyLatch s else s
  | _ => s

/-- Step B with SOFT_STOP: discarded in IDLE, applied at the start of a full cycle in NORMAL, left in the
latch elsewhere (40 R138). -/
def acceptSoftStop (s : State) : State :=
  match s.seq.engState with
  | .idle => emptyLatch s
  | .normal => if atCycleStart s then emptyLatch { s with seq.engState := .softStop } else s
  | _ => s

/-- NONE (40 R130): no command is applied, the latch stays as it is. -/
def execNone (s : State) : Out := commandTick (fun t => t) s

/-- RESET (40 R131). -/
def execReset (s : State) : Out := clearTick s

/-- SOFT_START (40 R134). -/
def execSoftStart (s : State) : Out := commandTick (acceptStart .softStart) s

/-- START, a start without the ramp (40 R135, the spec's choice D18; notes/assumptions/11.md). -/
def execStart (s : State) : Out := commandTick (acceptStart .start) s

/-- PING (40 R136). -/
def execPing (s : State) : Out := commandTick (acceptStart .ping) s

/-- SOFT_STOP (40 R138). -/
def execSoftStop (s : State) : Out := commandTick acceptSoftStop s

/-- STOP (40 R137), identical to RESET. -/
def execStop (s : State) : Out := clearTick s

end Sys2Proof.Machine
end

