-- ==== Sys2Proof/Machine/Controls.lean ====
section
/-! DEFINITION. The five control writes (30_encoding.md R118). Each acts at the write. -/

namespace Sys2Proof.Machine

/-- OVL_RESET (46_overload.md R379). -/
def execOvlReset (s : State) : Out := .next (ovlResetOp s)

/-- ZC_STOP_CHG (45_zero_crossing_fsm.md R319). -/
def execZcStopChg (s : State) : Out := .next (zcStopOp .chg s)

/-- ZC_STOP_INV (45 R319). -/
def execZcStopInv (s : State) : Out := .next (zcStopOp .inv s)

/-- CLR_FB_REVERSED (20_memory.md R83). -/
def execClrFbReversed (s : State) : Out := .next (clearFbReversed s)

/-- CLR_OUT_SHORTED (20 R83). -/
def execClrOutShorted (s : State) : Out := .next (clearOutShorted s)

end Sys2Proof.Machine
end

