-- ==== Sys2Proof/Machine/Dispatch.lean ====
section
/-! DEFINITION. One arm per instruction, each a direct call of its meaning. -/

namespace Sys2Proof.Machine

def exec (i : Instr) (s : State) : Host.Outcome State Fault Refusal :=
  match i with
  | .none => Sys2Proof.Machine.execNone s
  | .reset => Sys2Proof.Machine.execReset s
  | .softStart => Sys2Proof.Machine.execSoftStart s
  | .start => Sys2Proof.Machine.execStart s
  | .ping => Sys2Proof.Machine.execPing s
  | .softStop => Sys2Proof.Machine.execSoftStop s
  | .stop => Sys2Proof.Machine.execStop s
  | .ovlReset => Sys2Proof.Machine.execOvlReset s
  | .zcStopChg => Sys2Proof.Machine.execZcStopChg s
  | .zcStopInv => Sys2Proof.Machine.execZcStopInv s
  | .clrFbReversed => Sys2Proof.Machine.execClrFbReversed s
  | .clrOutShorted => Sys2Proof.Machine.execClrOutShorted s

end Sys2Proof.Machine
end

