-- ==== Sys2Proof/Machine/Overload.lean ====
section
/-! DEFINITION. Overload protection (46_overload.md): the instantaneous clamp `sample_tick` and the
escalation machine `zc_task`. -/

namespace Sys2Proof.Machine

/-- The average the sample is rectified around (46 R362). -/
def clampAverage (s : State) : U16 :=
  if s.ports.iAvgValid then s.ports.iCycleAvg else s.cfg.ovl.iZeroNominal

/-- `rect` (46 R362). -/
def clampRect (s : State) : Nat := ((s.ports.iSample.toNat : Int) - (clampAverage s).toNat).natAbs

/-- `thr` (46 R363). -/
def clampThreshold (s : State) : Nat :=
  if s.ovl.vdsThresholdActive then s.cfg.ovl.vdsThreshold.toNat else s.cfg.ovl.imeasThreshold.toNat

/-- `sample_tick` (46 R361, R364): strictly above the threshold, F3 is raised. -/
def sampleTick (s : State) : State :=
  if clampThreshold s < clampRect s then raiseFault .ovlEvent s else s

/-- The overload condition of one step (46 R371). -/
def overloadCond (s : State) : Bool :=
  decide (s.cfg.ovl.rmsThreshold.toNat < s.ports.iRms.toNat) || s.ovl.event

/-- What every step does before its state's rule: the event is consumed, the lockout counts down (46
R370, R377). -/
def ovlStepBegin (s : State) : State :=
  { s with ovl.event := false, ovl.retryCount := decU16 s.ovl.retryCount }

/-- NONE with the condition: an episode starts; the loose phase only if the lockout has run out (46
R372). -/
def ovlStart (s : State) : State :=
  if s.ovl.retryCount = 0 then
    { s with ovl.cycleCount := 0, ovl.resetCount := 0, ovl.state := .shortOverload,
             ovl.vdsThresholdActive := false }
  else
    { s with ovl.cycleCount := 0, ovl.resetCount := 0, ovl.state := .sustainedOverload,
             ovl.vdsThresholdActive := true }

/-- The counting of both overload phases (46 R373 to R375). -/
def ovlCount (cond : Bool) (s : State) : State :=
  { s with ovl.cycleCount := incU16 s.ovl.cycleCount,
           ovl.resetCount := if cond then 0 else incU16 s.ovl.resetCount }

/-- The early clear (46 R375). -/
def ovlEarlyClear (s : State) : State :=
  { s with ovl.state := .none, ovl.vdsThresholdActive := false, ovl.cycleCount := 0, ovl.resetCount := 0 }

/-- The loose phase is exhausted (46 R373). -/
def ovlTighten (s : State) : State :=
  { s with ovl.state := .sustainedOverload, ovl.vdsThresholdActive := true, ovl.cycleCount := 0,
           ovl.resetCount := 0, ovl.retryCount := s.cfg.ovl.retryLockout }

/-- The loose phase after its count: the clear is tested before the timeout (46 R373, R375). -/
def ovlLoose (s : State) : State :=
  if s.cfg.ovl.resetCount.toNat ≤ s.ovl.resetCount.toNat then ovlEarlyClear s
  else if s.cfg.ovl.irmsTimeout.toNat ≤ s.ovl.cycleCount.toNat then ovlTighten s
  else s

/-- The tight phase after its count (46 R374, R375): on expiry F4 is raised. -/
def ovlTight (s : State) : State :=
  if s.cfg.ovl.resetCount.toNat ≤ s.ovl.resetCount.toNat then ovlEarlyClear s
  else if s.cfg.ovl.vdsTimeout.toNat ≤ s.ovl.cycleCount.toNat then raiseFault .ovlShutdown s
  else s

/-- `zc_task(i_rms)` (46 R370). -/
def zcTask (s : State) : State :=
  match s.ovl.state with
  | .none => if overloadCond s then ovlStart (ovlStepBegin s) else ovlStepBegin s
  | .shortOverload => ovlLoose (ovlCount (overloadCond s) (ovlStepBegin s))
  | .sustainedOverload => ovlTight (ovlCount (overloadCond s) (ovlStepBegin s))
  | .shutdown => ovlStepBegin s

end Sys2Proof.Machine
end

