-- ==== Sys2Proof/Machine/ZeroCross.lean ====
section
/-! DEFINITION. `zc_tick(j, ac_raw)` (45_zero_crossing_fsm.md): the nine-state protocol of one
instance, in the order of R314. -/

namespace Sys2Proof.Machine

/-- What the crossing detection says of one tick (45 R313). -/
structure Crossing where
  crossPos : Bool
  crossNeg : Bool
  spike : Bool
  deriving DecidableEq, Repr

/-- The stop check (45 R319). -/
def zcStopCheck (z : ZcInst) : ZcInst :=
  if z.stopReq then resetToInit { z with stopReq := false } else z

/-- The history takes the newest sample (45 R312). -/
def zcPushSample (ac : U16) (z : ZcInst) : ZcInst :=
  { z with s2 := z.s1, s1 := z.s0, s0 := ac,
           histFill := if z.histFill.toNat < 3 then z.histFill + 1 else z.histFill }

/-- The floor of the mean of the three newest samples, a u16 (45 R312). -/
def zcAverage (z : ZcInst) : U16 := BitVec.ofNat 16 ((z.s0.toNat + z.s1.toNat + z.s2.toNat) / 3)

/-- Crossing detection between two averages (45 R313). -/
def crossingOf (c : ZcCfg) (avgPrev avgCur ac : U16) : Crossing where
  crossPos := !decide (c.zcThreshold.toNat ≤ avgPrev.toNat) && decide (c.zcThreshold.toNat ≤ avgCur.toNat)
  crossNeg := decide (c.zcThreshold.toNat ≤ avgPrev.toNat) && !decide (c.zcThreshold.toNat ≤ avgCur.toNat)
  spike := decide (c.zcSpikeTol.toNat < ((ac.toNat : Int) - c.zcThreshold.toNat).natAbs)

/-- `in_band(c)` (45 R321). -/
def inBand (c : ZcCfg) (n : U16) : Bool :=
  decide (c.phaseCountMin.toNat ≤ n.toNat) && decide (n.toNat ≤ c.phaseCountMax.toNat)

/-- Does the length match the saved one within ZC_MATCH_TOL (45 R323)? -/
def lengthsMatch (c : ZcCfg) (n saved : U16) : Bool :=
  decide (((n.toNat : Int) - saved.toNat).natAbs ≤ c.zcMatchTol.toNat)

/-- The pulse of an accepted crossing (45 R331). -/
def zcPulse (full : Bool) : ZcPulses := { ZcPulses.zero with zcEvent := true, zcFullCycle := full }

/-- A WAIT state (45 R321 to R324): `hit` is the awaited crossing, `ok` the match test of the second
cycle, `accepted` the outcome of a crossing that passes. `z.count` is already the `c` of R314(6). -/
def waitStep (c : ZcCfg) (hit ok : Bool) (accepted : ZcInst × ZcPulses) (z : ZcInst) :
    ZcInst × ZcPulses :=
  if hit then
    if !inBand c z.count then resync z
    else if !ok then resync z
    else accepted
  else if c.phaseCountMax.toNat < z.count.toNat then resync z
  else (z, ZcPulses.zero)

/-- A positive half-cycle of length `z.count` has ended, at an accepted negative-going crossing. -/
def savePos (next : ZcState) (z : ZcInst) : ZcInst :=
  { z with posCount := z.count, count := 0, zcState := next }

/-- A negative half-cycle of length `z.count` has ended, at an accepted positive-going crossing. -/
def saveNeg (next : ZcState) (z : ZcInst) : ZcInst :=
  { z with negCount := z.count, count := 0, zcState := next }

/-- `pos_half`: the locked states of a positive half-cycle (45 R325). -/
def posHalf : ZcState → Bool
  | .confirmNegPos => true
  | .posDetectOc => true
  | _ => false

/-- The four locked states (45 R325). -/
def locked : ZcState → Bool
  | .confirmNegPos => true
  | .posDetectOc => true
  | .confirmPosNeg => true
  | .negDetectOc => true
  | _ => false

/-- `expected`: the last half-cycle of the same polarity (45 R325). -/
def expectedLen (z : ZcInst) : Nat := if posHalf z.zcState then z.posCount.toNat else z.negCount.toNat

/-- The dwell of a CONFIRM state (45 R325, R326). -/
def dwell (z : ZcInst) : ZcInst :=
  match z.zcState with
  | .confirmNegPos =>
    { z with confirmLeft := decU16 z.confirmLeft,
             zcState := if decU16 z.confirmLeft = 0 then .posDetectOc else .confirmNegPos }
  | .confirmPosNeg =>
    { z with confirmLeft := decU16 z.confirmLeft,
             zcState := if decU16 z.confirmLeft = 0 then .negDetectOc else .confirmPosNeg }
  | _ => z

/-- A locked state with no accepted crossing in this tick: the last two steps of 45 R325. A tolerated
premature crossing comes here too, so a CONFIRM state dwells in its tick, as the pseudocode of R325 has it
and the prose of R333(c) has not (DEDUCED, notes/assumptions/25.md). -/
def lockedRest (c : ZcCfg) (z : ZcInst) : ZcInst × ZcPulses :=
  if expectedLen z + c.winEnd.toNat < z.count.toNat then resync z else (dwell z, ZcPulses.zero)

/-- A crossing accepted in a locked state (45 R325). -/
def lockedAccept (c : ZcCfg) (z : ZcInst) : ZcInst × ZcPulses :=
  if posHalf z.zcState then
    ({ savePos .confirmPosNeg z with confirmLeft := c.zcConfirmTicks }, zcPulse false)
  else
    ({ saveNeg .confirmNegPos z with confirmLeft := c.zcConfirmTicks }, zcPulse true)

/-- A locked state (45 R325). -/
def lockedStep (c : ZcCfg) (x : Crossing) (z : ZcInst) : ZcInst × ZcPulses :=
  if (if posHalf z.zcState then x.crossNeg else x.crossPos) then
    if (z.count.toNat : Int) < (expectedLen z : Int) - c.winStart.toNat then
      if x.spike then resync z else lockedRest c z
    else if z.count.toNat ≤ expectedLen z + c.winEnd.toNat then
      if !inBand c z.count then resync z else lockedAccept c z
    else resync z
  else lockedRest c z

/-- Steps (5) to (7) of 45 R314. -/
def zcProtocol (c : ZcCfg) (x : Crossing) (z : ZcInst) : ZcInst × ZcPulses :=
  let z1 := { z with count := incU16 z.count }
  match z.zcState with
  | .init => (if x.crossPos then { z with count := 0, zcState := .posWaitNeg1 } else z, ZcPulses.zero)
  | .posWaitNeg1 => waitStep c x.crossNeg true (savePos .negWaitPos1 z1, zcPulse false) z1
  | .negWaitPos1 => waitStep c x.crossPos true (saveNeg .posWaitNeg2 z1, zcPulse false) z1
  | .posWaitNeg2 =>
    waitStep c x.crossNeg (lengthsMatch c z1.count z.posCount) (savePos .negWaitPos2 z1, zcPulse false) z1
  | .negWaitPos2 =>
    waitStep c x.crossPos (lengthsMatch c z1.count z.negCount)
      ({ saveNeg .confirmNegPos z1 with outputting := true, confirmLeft := c.zcConfirmTicks }, zcPulse true) z1
  | .confirmNegPos => lockedStep c x z1
  | .posDetectOc => lockedStep c x z1
  | .confirmPosNeg => lockedStep c x z1
  | .negDetectOc => lockedStep c x z1

/-- Steps (3) to (7) of 45 R314, after the stop check: the filter may end the tick (R312). -/
def zcFilterAndRun (c : ZcCfg) (ac : U16) (z : ZcInst) : ZcInst × ZcPulses :=
  let z1 := zcPushSample ac z
  let avg := zcAverage z1
  if z1.histFill.toNat < 3 then (z1, ZcPulses.zero)
  else if !z1.havePrev then ({ z1 with avgPrev := avg, havePrev := true }, ZcPulses.zero)
  else zcProtocol c (crossingOf c z1.avgPrev avg ac) { z1 with avgPrev := avg }

/-- One `zc_tick` of an instance: its next state and its event outputs (45 R314). -/
def zcTick (c : ZcCfg) (ac : U16) (z : ZcInst) : ZcInst × ZcPulses :=
  zcFilterAndRun c ac (zcStopCheck z)

/-- `zc_tick(j, ac_raw)` on the machine, with the port `ac_raw`. -/
def tickZc (j : ZcId) (s : State) : State :=
  setZcOut j (zcTick (zcCfg s.cfg j) s.ports.acRaw (getZc s j)) s

end Sys2Proof.Machine
end

