-- ==== Sys2Proof/Machine/Events.lean ====
section
/-! DEFINITION. The events (00_scope.md R6): how an `eng_tick` fetches its command from the latch, how a
host write reaches the control operations, and the composition of a `pwm_tick` (60_exceptions.md R411).
An event's arguments are put on the input ports, then the event runs. -/

namespace Sys2Proof.Machine

/-- Step A of 40_engine_commands.md R150: the command in the latch. A reserved code is discarded and the
tick runs as for NONE (40 R139; notes/assumptions/23.md). -/
def fetchCommand (s : State) : Instr × State :=
  match decodeCmd s.cmdLatch with
  | .ok i => (i, s)
  | .error _ => (.none, emptyLatch s)

/-- `eng_tick` (40 R150): the fetched command's meaning is the tick. -/
def engTick (s : State) : Out := exec (fetchCommand s).1 (fetchCommand s).2

/-- `pwm_tick` (60_exceptions.md R411), the handler on its port. The charger's tick records that the
charger runs (43_pid_corrector.md R242). -/
def pwmTick (s : State) : Out :=
  match s.ports.handler with
  | .inverter => andThen (engTick s) (fun t => .next (tickZc .inv t))
  | .charger => .next (tickZc .chg { s with safe.safeCyclesLeft := s.cfg.safeICycles })
  | .default => .next s
  | .bootCharge => .next s

/-- The control operations of one word, each independently, lowest bit first (30_encoding.md R118). -/
def runControls : List Instr → State → Out
  | [], s => .next s
  | i :: is, s => andThen (exec i s) (runControls is)

/-- A performed write at a register offset: CMD fills the latch (20_memory.md R80), the control registers
run their operations (R81 to R83), every other register ignores it (R76, R77). -/
def regWrite (offset : Nat) (v : U32) (s : State) : Out :=
  if offset = cmdOffset then .next (cmdWrite v s) else runControls (decodeCtrl offset v) s

/-- `MemWrite(addr, n, v)` (00_scope.md R18): an access that is not performed changes nothing
(20_memory.md R75; 93 U2, notes/assumptions/10.md). -/
def busWrite (addr bytes : Nat) (v : U32) (s : State) : Out :=
  match busOffset s.cfg addr bytes with
  | some offset => regWrite offset v s
  | none => .next s

/-- The state an event starts in: the event is taken from those to come, every event output is 0
(10_state.md R66). -/
def beginEvent (rest : List Event) (s : State) : State :=
  { s with events := rest, pulses := Pulses.zero, busRdata := none }

/-- One event (00_scope.md R6). -/
def runEvent (e : Event) (s : State) : Out :=
  match e with
  | .pwmTick h fb vbus vbatt rms ac =>
    pwmTick { s with ports.handler := h, ports.fbIn := fb, ports.vbusIn := vbus, ports.vbattAvg := vbatt,
                     ports.rmsOffset := rms, ports.acRaw := ac }
  | .engTick fb vbus vbatt rms =>
    engTick { s with ports.fbIn := fb, ports.vbusIn := vbus, ports.vbattAvg := vbatt, ports.rmsOffset := rms }
  | .zcTick j ac => .next (tickZc j { s with ports.acRaw := ac })
  | .sampleTick i avg valid =>
    .next (sampleTick { s with ports.iSample := i, ports.iCycleAvg := avg, ports.iAvgValid := valid })
  | .zcTask irms => .next (zcTask { s with ports.iRms := irms })
  | .busWrite addr n v => busWrite addr n v s
  | .busRead addr n => .next { s with busRdata := some (busReadValue s addr n) }
  | .hwReset => .next (hwResetOp s)

end Sys2Proof.Machine
end

