-- ==== Sys2Proof/WellFormed.lean ====
section
/-! DEFINITION. What is well formed. An instruction has no operand (30_encoding.md R119), so every
`Instr` is well formed as it stands. The parameter record CFG has the constraints of 00_scope.md R9 to
R14 and 42_sine_table_lookup.md R211; a record that breaks one is refused (00_scope.md R15,
93_implementation_defined.md U1). A bound that a field's container already gives (u16, u32, s32) is
not repeated. -/

namespace Sys2Proof

/-- The constraints of CFG, one name each. -/
inductive Constraint where
  /-- 2 ≤ N ≤ 65535 (00 R9). -/
  | nRange
  /-- TABLE has N entries (00 R9). -/
  | tableLength
  /-- every entry is at most 0x0001_0000 (00 R9, 42 R211(d)). -/
  | tableEntries
  /-- TABLE[i] = TABLE[N-1-i] (42 R211(a)). -/
  | tableSymmetry
  /-- TABLE[i] ≤ TABLE[i+1] for 2i + 2 ≤ N (42 R211(b)). -/
  | tableHump
  /-- PWM_PERIOD ≥ 1 (00 R10). -/
  | pwmPeriodPos
  /-- MIN_DUTY ≤ MAX_DUTY (00 R10). -/
  | minLeMax
  /-- MAX_DUTY ≤ FLAT_TOP_DUTY (00 R10). -/
  | maxLeFlatTop
  /-- FLAT_TOP_DUTY ≤ PWM_PERIOD (00 R10). -/
  | flatTopLePeriod
  /-- SOFT_START_MAX_DUTY ≤ PWM_PERIOD (00 R10). -/
  | softStartLePeriod
  /-- SOFT_START_CYCLES ≥ 1 (00 R10). -/
  | softStartCyclesPos
  /-- PING_RAMP_HC ≥ 1 (00 R10). -/
  | pingRampPos
  /-- VBATT_NOMINAL ≥ 1 (00 R10). -/
  | vbattNominalPos
  /-- FB_DELAY ≤ 255 (00 R10). -/
  | fbDelayRange
  /-- I_LIMIT ≥ 0 (00 R10). -/
  | iLimitNonneg
  /-- FB_ZERO_COUNT_MAX ≥ 1 (00 R10). -/
  | fbZeroCountMaxPos
  /-- SAT_TAIL_START ≤ N (00 R10). -/
  | satTailRange
  /-- SATURATION_DUTY_GAIN ≥ 0 (00 R10). -/
  | satGainNonneg
  /-- ZC_OFFSET_STEP ≥ 1 (00 R10). -/
  | zcOffsetStepPos
  /-- PHASE_COUNT_MIN ≤ PHASE_COUNT_MAX, instance CHG (00 R11). -/
  | bandChg
  /-- ZC_CONFIRM_TICKS ≥ 1, instance CHG (00 R11). -/
  | confirmChg
  /-- PHASE_COUNT_MIN ≤ PHASE_COUNT_MAX, instance INV (00 R11). -/
  | bandInv
  /-- ZC_CONFIRM_TICKS ≥ 1, instance INV (00 R11). -/
  | confirmInv
  /-- OVL_VDS_THRESHOLD ≤ OVL_IMEAS_THRESHOLD (00 R14). -/
  | vdsLeImeas
  /-- OVL_IRMS_TIMEOUT ≥ 1 (00 R14). -/
  | irmsTimeoutPos
  /-- OVL_VDS_TIMEOUT ≥ 1 (00 R14). -/
  | vdsTimeoutPos
  /-- OVL_RESET_COUNT ≥ 1 (00 R14). -/
  | resetCountPos
  deriving DecidableEq, Repr

/-- Does CFG meet the named constraint? -/
def Cfg.meets (c : Cfg) : Constraint → Bool
  | .nRange => decide (2 ≤ c.n) && decide (c.n ≤ 65535)
  | .tableLength => c.table.length == c.n
  | .tableEntries => c.table.all fun t => decide (t.toNat ≤ 0x10000)
  | .tableSymmetry => (List.range c.n).all fun i => c.table[i]? == c.table[c.n - 1 - i]?
  | .tableHump => (List.range c.n).all fun i =>
      !decide (2 * i + 2 ≤ c.n) || decide ((c.table.getD i 0).toNat ≤ (c.table.getD (i + 1) 0).toNat)
  | .pwmPeriodPos => decide (1 ≤ c.pwmPeriod.toNat)
  | .minLeMax => decide (c.minDuty.toNat ≤ c.maxDuty.toNat)
  | .maxLeFlatTop => decide (c.maxDuty.toNat ≤ c.flatTopDuty.toNat)
  | .flatTopLePeriod => decide (c.flatTopDuty.toNat ≤ c.pwmPeriod.toNat)
  | .softStartLePeriod => decide (c.softStartMaxDuty.toNat ≤ c.pwmPeriod.toNat)
  | .softStartCyclesPos => decide (1 ≤ c.softStartCycles.toNat)
  | .pingRampPos => decide (1 ≤ c.pingRampHc.toNat)
  | .vbattNominalPos => decide (1 ≤ c.vbattNominal.toNat)
  | .fbDelayRange => decide (c.fbDelay ≤ 255)
  | .iLimitNonneg => decide (0 ≤ c.iLimit.toInt)
  | .fbZeroCountMaxPos => decide (1 ≤ c.fbZeroCountMax.toNat)
  | .satTailRange => decide (c.satTailStart ≤ c.n)
  | .satGainNonneg => decide (0 ≤ c.saturationDutyGain.toInt)
  | .zcOffsetStepPos => decide (1 ≤ c.zcOffsetStep.toNat)
  | .bandChg => decide (c.zcChg.phaseCountMin.toNat ≤ c.zcChg.phaseCountMax.toNat)
  | .confirmChg => decide (1 ≤ c.zcChg.zcConfirmTicks.toNat)
  | .bandInv => decide (c.zcInv.phaseCountMin.toNat ≤ c.zcInv.phaseCountMax.toNat)
  | .confirmInv => decide (1 ≤ c.zcInv.zcConfirmTicks.toNat)
  | .vdsLeImeas => decide (c.ovl.vdsThreshold.toNat ≤ c.ovl.imeasThreshold.toNat)
  | .irmsTimeoutPos => decide (1 ≤ c.ovl.irmsTimeout.toNat)
  | .vdsTimeoutPos => decide (1 ≤ c.ovl.vdsTimeout.toNat)
  | .resetCountPos => decide (1 ≤ c.ovl.resetCount.toNat)

/-- Every constraint, in the order of the spec's tables. -/
def Constraint.all : List Constraint :=
  [.nRange, .tableLength, .tableEntries, .tableSymmetry, .tableHump, .pwmPeriodPos, .minLeMax,
   .maxLeFlatTop, .flatTopLePeriod, .softStartLePeriod, .softStartCyclesPos, .pingRampPos,
   .vbattNominalPos, .fbDelayRange, .iLimitNonneg, .fbZeroCountMaxPos, .satTailRange, .satGainNonneg,
   .zcOffsetStepPos, .bandChg, .confirmChg, .bandInv, .confirmInv, .vdsLeImeas, .irmsTimeoutPos,
   .vdsTimeoutPos, .resetCountPos]

/-- `CFG.valid` (93_implementation_defined.md U1): the record meets every constraint. -/
def Cfg.valid (c : Cfg) : Bool := Constraint.all.all c.meets

end Sys2Proof
end

