-- ==== Sys2Proof/Machine/Step.lean ====
section
/-! DEFINITION. One step: the next event happens. -/

namespace Sys2Proof.Machine

/-- One step. A parameter record that breaks a constraint is refused (00_scope.md R15, 93 U1,
notes/assumptions/9.md). The block changes state only in response to an event (00_scope.md R5): with no
event to come the state stays as it is (notes/assumptions/15.md). -/
def step (s : State) : Host.Outcome State Fault Refusal :=
  if s.cfg.valid then
    match s.events with
    | [] => .next s
    | e :: rest => runEvent e (beginEvent rest s)
  else .refused .invalidConfig

/-- The event in which the block meets an instruction word next: a command byte is met by an `eng_tick`
(with the port values as they stand), a control word by the host's write of it to its carrier offset. -/
def fetchEvent (s : State) (nbits w : Nat) : Event :=
  if nbits ≤ 8 then .engTick s.ports.fbIn s.ports.vbusIn s.ports.vbattAvg s.ports.rmsOffset
  else .busWrite (s.cfg.regBase + (tableCarrier nbits w).getD ovlCtrlOffset) 4 (BitVec.ofNat 32 w)

/-- `s` with the instruction word where the next step meets it: a command byte in the latch and an
`eng_tick` as the next event, or a control write as the next event (notes/assumptions/1.md, 7.md). -/
def State.withFetchWord (s : State) (nbits w : Nat) : State :=
  { s with
    cmdLatch := if nbits ≤ 8 then BitVec.ofNat 8 w else s.cmdLatch
    events := fetchEvent s nbits w :: s.events }

end Sys2Proof.Machine
end

