-- ==== Sys2Proof/Safety.lean ====
section
/-! DEFINITION. What counts as a safe state: the invariants of the engine group, the ramp, the overload
group and the zero-crossing instances, in the terms the claims use. Each conjunct names the rule of
spec/ it comes from. -/

namespace Sys2Proof.Machine

/-- Both pairs forced to a static low (44_clamp_saturation.md R290). -/
def drivesOff (s : State) : Prop :=
  s.drive = { DriveRegs.reset with dutyOut := s.drive.dutyOut }

/-- The PID state is zero and no flat-top window is open (43_pid_corrector.md R241). -/
def pidClear (s : State) : Prop := s.pid = ⟨0, 0, 0⟩ ∧ s.flatTop = ⟨false, 0⟩

/-- The duty values the block may drive (44 R260). -/
def dutyInRange (c : Cfg) (d : U16) : Prop :=
  d = 0 ∨ (c.minDuty.toNat ≤ d.toNat ∧ d.toNat ≤ c.flatTopDuty.toNat)

/-- The engine group (10_state.md R22 to R33). -/
structure EngInv (s : State) : Prop where
  /-- 0 ≤ idx < N (10 R22). -/
  idx_lt : s.seq.idx.toNat < s.cfg.n
  /-- The delay line has FB_DELAY entries (10 R27). -/
  line_length : s.fbDly.length = s.cfg.fbDelay
  /-- In IDLE everything `pid_phase_clear()` writes is clear and both pairs are forced low (10 R22, 40
  R141, R151). -/
  idle_clear : s.seq.engState = .idle → pidPhaseClear s = s ∧ drivesOff s
  /-- Right after a boundary the PID state, the flat-top window and both accumulators are clear (42
  R215). -/
  start_clear : s.seq.idx = 0 → pidClear s ∧ s.rebal.dutyAcc = 0 ∧ s.satDet.satAcc = 0
  /-- In SOFT_START and PING nothing writes the PID state (43 R241), no NORMAL half-cycle counts (42
  R215) and no near-zero peak has been counted (44 R295). -/
  open_clear : s.seq.engState = .softStart ∨ s.seq.engState = .ping →
    pidClear s ∧ s.ramp.normHalves = 0 ∧ s.fbZeroCount = 0
  /-- In SOFT_STOP the PID state is zero too (43 R241), but for the rest of the one half-cycle whose
  near-zero test failed (44 R297, R267(e); notes/assumptions/18.md). -/
  soft_stop_clear : s.seq.engState = .softStop →
    pidClear s ∨ (s.cfg.n / 2 < s.seq.idx.toNat ∧ s.cfg.fbZeroCountMax.toNat ≤ s.fbZeroCount.toNat)
  /-- norm_halves ≤ 2 (10 R24). -/
  halves_le : s.ramp.normHalves.toNat ≤ 2
  /-- abs(integral_sum) ≤ I_LIMIT (10 R25). -/
  integral_abs : s.pid.integralSum.toInt.natAbs ≤ s.cfg.iLimit.toNat
  /-- abs(saved_integral_sum) ≤ I_LIMIT (10 R25). -/
  saved_abs : s.pid.savedIntegralSum.toInt.natAbs ≤ s.cfg.iLimit.toNat
  /-- A window is open only in NORMAL, or in SOFT_STOP after a failed self-test (44 R263, R267); its end
  N - k lies in the falling half (44 R264). -/
  window : s.flatTop.active = true →
    (s.seq.engState = .normal ∨ s.seq.engState = .softStop) ∧
    s.flatTop.endIdx.toNat ≤ s.cfg.n ∧ s.cfg.n ≤ 2 * s.flatTop.endIdx.toNat
  /-- The duty accumulator is a sum of `idx` duties (44 R270), so it never saturates (70 R473). -/
  duty_acc_le : s.rebal.dutyAcc.toNat ≤ s.seq.idx.toNat * 65535
  /-- The tail accumulator is a sum of at most `idx` samples (44 R280, 70 R473). -/
  sat_acc_le : s.satDet.satAcc.toNat ≤ s.seq.idx.toNat * 65535
  /-- ramp_inc ≥ 1 in every active state (40 R145). -/
  inc_pos : s.seq.engState ≠ .idle → 1 ≤ s.ramp.rampInc.toNat
  /-- SOFT_START has at most SOFT_START_CYCLES half-cycles (40 R160). -/
  soft_start_count : s.seq.engState = .softStart → halvesDone s.ramp < s.cfg.softStartCycles.toNat
  /-- PING has at most 2·PING_RAMP_HC half-cycles (40 R163). -/
  ping_count : s.seq.engState = .ping → halvesDone s.ramp < 2 * s.cfg.pingRampHc.toNat
  /-- Half-cycles are counted beside `hc_count` only once it is full (92 D12, notes/assumptions/12.md). -/
  count_full : s.ramp.hcOver ≠ 0 → s.ramp.hcCount.toNat = 65535
  /-- Outside SOFT_STOP the near-zero counter is below its limit (44 R297). -/
  zero_count : s.seq.engState ≠ .softStop → s.fbZeroCount.toNat < s.cfg.fbZeroCountMax.toNat
  /-- abs(zc_offset) ≤ ZC_OFFSET_MAX (10 R28). -/
  offset_abs : s.rebal.zcOffset.toInt.natAbs ≤ s.cfg.zcOffsetMax.toNat
  /-- No reduction amount without a reduction in force (44 R282). -/
  reduce_amt : s.satDet.reduceActive = false → s.satDet.reduceAmt = 0
  /-- safe_cycles_left ≤ SAFE_I_CYCLES (43 R242). -/
  safe_le : s.safe.safeCyclesLeft.toNat ≤ s.cfg.safeICycles.toNat
  /-- The block only ever forces low (10 R32(c)). -/
  levels_low : s.drive.ovrLvlA = false ∧ s.drive.ovrLvlB = false
  /-- At most one pair is under PWM control (10 R32(d)). -/
  one_pair : s.drive.ovrEnA = true ∨ s.drive.ovrEnB = true
  /-- The duty registers show `duty_out` on the pair under PWM control and 0 on a forced one (44 R291). -/
  duty_regs : s.drive.pdcA = (if s.drive.ovrEnA then 0 else s.drive.dutyOut) ∧
    s.drive.pdcB = (if s.drive.ovrEnB then 0 else s.drive.dutyOut) ∧
    (s.drive.ovrEnA = true → s.drive.ovrEnB = true → s.drive.dutyOut = 0)
  /-- Every duty driven lies in {0} ∪ [MIN_DUTY, FLAT_TOP_DUTY] (44 R260). -/
  duty_range : dutyInRange s.cfg s.drive.dutyOut
  /-- While a feedback fault is latched the engine is stopped or ramping down (44 R296, R297, 40 R142). -/
  faults_stop : s.flags.feedbackReversed = true ∨ s.flags.outputShorted = true →
    s.seq.engState = .idle ∨ s.seq.engState = .softStop

/-- The multiplier in half-cycle `h` of the soft-start ramp (40_engine_commands.md R160). -/
def softStartMultiplier (inc h : Nat) : Nat := min 65535 ((h + 1) * inc)

/-- The multiplier in half-cycle `h` of a ping of `2·u` half-cycles (40 R163): `(h + 1)·inc` going up,
`(2u - h)·inc` coming down, cut at the ends of a u16. -/
def pingMultiplier (u inc h : Nat) : Nat :=
  if h < u then min 65535 ((h + 1) * inc) else min 65535 (u * inc) - (h - u) * inc

/-- The ramps (40 R160, R163). -/
structure RampInv (s : State) : Prop where
  soft_start : s.seq.engState = .softStart →
    s.ramp.multiplier.toNat = softStartMultiplier s.ramp.rampInc.toNat (halvesDone s.ramp)
  ping : s.seq.engState = .ping →
    s.ramp.multiplier.toNat = pingMultiplier s.cfg.pingRampHc.toNat s.ramp.rampInc.toNat (halvesDone s.ramp)

/-- The overload group (46_overload.md R363, R370 to R377). -/
structure OvlInv (s : State) : Prop where
  /-- The tight threshold is in force exactly in SUSTAINED_OVERLOAD and SHUTDOWN (46 R363). -/
  threshold : s.ovl.vdsThresholdActive = true ↔
    s.ovl.state = .sustainedOverload ∨ s.ovl.state = .shutdown
  /-- No episode, no counts (46 R372, R375). -/
  none_clear : s.ovl.state = .none → s.ovl.cycleCount = 0 ∧ s.ovl.resetCount = 0
  /-- The loose phase ends at OVL_IRMS_TIMEOUT (46 R373). -/
  loose_count : s.ovl.state = .shortOverload → s.ovl.cycleCount.toNat < s.cfg.ovl.irmsTimeout.toNat
  /-- The tight phase ends at OVL_VDS_TIMEOUT (46 R374). -/
  tight_count : s.ovl.state = .sustainedOverload → s.ovl.cycleCount.toNat < s.cfg.ovl.vdsTimeout.toNat
  /-- SHUTDOWN keeps the count that latched it (46 R376). -/
  shutdown_count : s.ovl.state = .shutdown → s.ovl.cycleCount = s.cfg.ovl.vdsTimeout
  /-- The clear comes at OVL_RESET_COUNT (46 R375). -/
  reset_count : s.ovl.resetCount.toNat < s.cfg.ovl.resetCount.toNat
  /-- retry_count ≤ OVL_RETRY_LOCKOUT (46 R377). -/
  retry_le : s.ovl.retryCount.toNat ≤ s.cfg.ovl.retryLockout.toNat
  /-- skip_next_pulse_count ≤ OVL_SKIP_PULSES (46 R364). -/
  skip_le : s.ovl.skipNextPulseCount.toNat ≤ s.cfg.ovl.skipPulses.toNat

/-- The two CONFIRM states (45_zero_crossing_fsm.md R326). -/
def confirming : ZcState → Bool
  | .confirmNegPos => true
  | .confirmPosNeg => true
  | _ => false

/-- The four WAIT states (45 R321 to R324). -/
def waiting : ZcState → Bool
  | .posWaitNeg1 => true
  | .negWaitPos1 => true
  | .posWaitNeg2 => true
  | .negWaitPos2 => true
  | _ => false

/-- The states in which a positive half-cycle has been measured (45 R311). -/
def posMeasured : ZcState → Bool
  | .init => false
  | .posWaitNeg1 => false
  | _ => true

/-- The states in which a negative half-cycle has been measured (45 R311). -/
def negMeasured : ZcState → Bool
  | .init => false
  | .posWaitNeg1 => false
  | .negWaitPos1 => false
  | _ => true

/-- One zero-crossing instance with its parameters (45_zero_crossing_fsm.md). -/
structure ZcInv (c : ZcCfg) (z : ZcInst) : Prop where
  /-- `outputting` exactly in the four locked states (45 R333(b)). -/
  outputting_iff : z.outputting = locked z.zcState
  /-- A saved positive length is in the band, and there is none before one is measured (45 R333(a)). -/
  pos_band : if posMeasured z.zcState then inBand c z.posCount = true else z.posCount = 0
  /-- The same for the negative length (45 R333(a)). -/
  neg_band : if negMeasured z.zcState then inBand c z.negCount = true else z.negCount = 0
  /-- The dwell runs exactly in a CONFIRM state (45 R326). -/
  confirm : if confirming z.zcState then 1 ≤ z.confirmLeft.toNat ∧ z.confirmLeft.toNat ≤ c.zcConfirmTicks.toNat
    else z.confirmLeft = 0
  /-- `count` does not run in INIT (45 R320). -/
  init_count : z.zcState = .init → z.count = 0
  /-- A WAIT state gives up above PHASE_COUNT_MAX (45 R321). -/
  wait_count : waiting z.zcState = true → z.count.toNat ≤ c.phaseCountMax.toNat
  /-- A locked state gives up at the end of its window (45 R325). -/
  lock_count : locked z.zcState = true → z.count.toNat ≤ expectedLen z + c.winEnd.toNat
  /-- The first average needs three samples (45 R312). -/
  prev_full : z.havePrev = true → z.histFill = 3

/-- The whole invariant: CFG meets its constraints and every group its own invariant. -/
structure Inv (s : State) : Prop where
  cfg_valid : s.cfg.valid = true
  eng : EngInv s
  ramp : RampInv s
  ovl : OvlInv s
  chg : ZcInv s.cfg.zcChg s.zcChg
  inv : ZcInv s.cfg.zcInv s.zcInv

end Sys2Proof.Machine
end

