-- ==== Sys2Proof/Certificates/Slice0/Obligations.lean ====
section
/-! DEFINITION. The statements for the provers, and the vocabulary they share: the spec's formulas on
mathematical integers (00_scope.md R16), written from the rules and not from the meanings. -/

namespace Sys2Proof.Claims

open Sys2Proof Sys2Proof.Machine

/-! ### Vocabulary: arithmetic -/

/-- `sat_s32` on integers (00_scope.md R16(g)). -/
def sat32 (v : Int) : Int := max (-2147483648) (min v 2147483647)

/-- The product of a Q16 gain and an integer, truncated toward zero and saturated (41 R181, R186). -/
def gained (g x : Int) : Int := sat32 ((g * x).tdiv 65536)

/-- The battery-scaled value (41 R190), for `vbatt ≠ 0` the ratio nominal over measured. -/
def scaled (nominal x vbatt : Nat) : Nat :=
  if vbatt = 0 then x else min 65535 (x * (nominal * 65536 / vbatt) / 65536)

/-! ### Vocabulary: one engine tick -/

/-- The table entry of the index of this tick (42 R212). -/
def tableAt (s : State) : Nat := (s.cfg.table.getD s.seq.idx.toNat 0).toNat

/-- The sign-corrected sample of this tick (43 R231). -/
def corrected (s : State) : Int :=
  if s.seq.phase = .positive then s.ports.fbIn.toInt else -s.ports.fbIn.toInt

/-- The sample the error is computed from: the oldest of the line, or this tick's own (43 R232). -/
def delayed (s : State) : Int := ((s.fbDly.map BitVec.toInt).getLast?).getD (corrected s)

/-- This tick computes the index of the feedback self-tests (00 R13). -/
def atPeak (s : State) : Prop := s.seq.idx.toNat = s.cfg.n / 2

/-- The reversed-feedback test of this tick fails (44 R296). -/
def reversedNow (s : State) : Prop :=
  s.seq.engState = .softStart ∧ atPeak s ∧ corrected s < -(s.cfg.noiseBand.toNat : Int)

/-- The near-zero counter after this tick's test (44 R297). -/
def zeroCountNow (s : State) : Nat :=
  if s.seq.engState = .normal ∧ s.seq.idx.toNat = s.cfg.n / 2 then
    if (corrected s).natAbs < s.cfg.noiseBand.toNat then s.fbZeroCount.toNat + 1 else 0
  else s.fbZeroCount.toNat

/-- The near-zero test of this tick fails (44 R297). -/
def shortedNow (s : State) : Prop :=
  s.seq.engState = .normal ∧ atPeak s ∧ s.cfg.fbZeroCountMax.toNat ≤ zeroCountNow s

/-- Is the engine ready to run a tick: active, not shut down, in a state and with a record the spec
admits (40 R150 steps A to D)? -/
def ticking (s : State) : Prop :=
  s.cfg.valid = true ∧ EngInv s ∧ s.seq.engState ≠ .idle ∧ s.ovl.state ≠ .shutdown

/-- The duty of an open-loop tick (40 R152). -/
def openDuty (s : State) : Nat :=
  max s.cfg.minDuty.toNat (min (tableAt s * s.ramp.multiplier.toNat / 65536) s.cfg.maxDuty.toNat)

/-- The drive step of a tick with duty `d` (44 R291 to R293): the pair of the tick's phase under PWM
control and the other forced low, or both off while a skip is counted down. -/
def driven (s t : State) (d : Int) : Prop :=
  if s.ovl.skipNextPulseCount = 0 then
    (t.drive.dutyOut.toNat : Int) = d ∧ t.ovl = s.ovl ∧
    t.drive = (if s.seq.phase = .positive then
        ⟨t.drive.dutyOut, t.drive.dutyOut, 0, false, true, false, false⟩
      else ⟨t.drive.dutyOut, 0, t.drive.dutyOut, true, false, false, false⟩)
  else
    t.drive = ⟨0, 0, 0, true, true, false, false⟩ ∧
    t.ovl = { s.ovl with skipNextPulseCount := s.ovl.skipNextPulseCount - 1 }

/-- The delay line takes the corrected sample and drops its oldest entry (43 R232). -/
def lined (s t : State) : Prop :=
  t.fbDly.map BitVec.toInt = (corrected s :: s.fbDly.map BitVec.toInt).take s.cfg.fbDelay

/-- The accumulators of the half-cycle in progress after this tick (44 R270, R280), the duty applied
being the one in `t`. -/
def dutySum (s t : State) : Nat := s.rebal.dutyAcc.toNat + t.drive.dutyOut.toNat

/-- The tail accumulator after this tick (44 R280). -/
def tailSum (s : State) : Nat :=
  s.satDet.satAcc.toNat + (if s.cfg.satTailStart ≤ s.seq.idx.toNat then s.ports.vbusIn.toNat else 0)

/-- What the closed-loop computation of a tick leaves (43 R234), on integers. -/
structure PidResult where
  integral : Int
  prevError : Int
  saved : Int
  active : Bool
  endIdx : Nat
  duty : Int

/-- The closed-loop computation of 43 R234 on integers: the window closes, error, integral, terms,
sum, the window opens, clamp, reduction. -/
def normalResult (s : State) : PidResult :=
  let t := tableAt s
  let idx := s.seq.idx.toNat
  let closing := s.flatTop.active && decide (s.flatTop.endIdx.toNat ≤ idx)
  let act0 := s.flatTop.active && !closing
  let sum0 := if closing then s.pid.savedIntegralSum.toInt else s.pid.integralSum.toInt
  let setpoint : Int := (t * (s.cfg.rmsSetpoint.toNat + s.ports.rmsOffset.toInt).toNat / 65536 : Nat)
  let err := setpoint - delayed s
  let sum1 := if act0 then 0 else max (-s.cfg.iLimit.toInt) (min (sum0 + err) s.cfg.iLimit.toInt)
  let ki := if s.safe.kiSafeSel then s.cfg.kiSafe.toInt else s.cfg.ki.toInt
  let raw := sat32 ((t * s.ramp.multiplier.toNat / 65536 : Nat) + gained s.cfg.kp.toInt err
    + gained ki sum1 + gained s.cfg.kd.toInt (sat32 (err - s.pid.prevError.toInt)))
  let opening := !act0 && decide ((s.cfg.maxDuty.toNat : Int) < raw) && decide (idx ≤ s.cfg.n / 2)
  let act1 := act0 || opening
  let chosen : Int := if act1 then s.cfg.flatTopDuty.toNat
    else max (s.cfg.minDuty.toNat : Int) (min raw s.cfg.maxDuty.toNat)
  { integral := if act1 then 0 else sum1
    prevError := err
    saved := if opening then sum1 else s.pid.savedIntegralSum.toInt
    active := act1
    endIdx := if opening then s.cfg.n - idx else s.flatTop.endIdx.toNat
    duty := if s.satDet.reduceActive && s.seq.phase == s.satDet.reducePhase then
        max (s.cfg.minDuty.toNat : Int) (chosen - s.satDet.reduceAmt.toNat)
      else chosen }

/-- The engine state after the self-tests of this tick (40 R150 step E). -/
def stateAfterTests (s : State) (e : EngState) : Prop :=
  ((reversedNow s ∨ shortedNow s) ∧ e = .softStop) ∨
    (¬ reversedNow s ∧ ¬ shortedNow s ∧ e = s.seq.engState)

/-- The flags after the self-tests of this tick (44 R296, R297). -/
def flagsAfterTests (s t : State) : Prop :=
  (t.flags.feedbackReversed = true ↔ s.flags.feedbackReversed = true ∨ reversedNow s) ∧
  (t.flags.outputShorted = true ↔ s.flags.outputShorted = true ∨ shortedNow s)

/-- The overload group after the drive step of a tick: a skip that is on is counted down once (44 R293). -/
def skipCounted (s : State) : OvlGroup :=
  if s.ovl.skipNextPulseCount = 0 then s.ovl
  else { s.ovl with skipNextPulseCount := s.ovl.skipNextPulseCount - 1 }

/-- The tick from `s` ended the run in `t`: what `idle_entry()` clears is clear and both pairs are forced
low; `zc_offset`, `ki_safe_sel` and `safe_cycles_left` are kept, which tells it from `engine_clear()`, and so
is the rest but the skip count and the fault flags of the tick (40 R141, 70 R451); the half-cycle is pulsed
and the full cycle is not (40 R163, R165). -/
def endedInIdle (s t : State) : Prop :=
  t = { s with
    seq := ⟨.idle, .positive, 0⟩, ramp := ⟨0, 0, 0, 0, 0⟩, pid := ⟨0, 0, 0⟩, flatTop := ⟨false, 0⟩
    fbDly := List.replicate s.fbDly.length 0, rebal := ⟨0, 0, 0, s.rebal.zcOffset⟩
    satDet := ⟨0, 0, 0, false, .positive, 0⟩, fbZeroCount := 0
    drive := ⟨0, 0, 0, true, true, false, false⟩, flags := t.flags, ovl := skipCounted s
    pulses.halfCycle := true, pulses.fullCycle := false }

/-- The command codes that do not act in every state (40 R132). -/
def waitingCommands : List Instr := [.softStart, .start, .ping, .softStop]

/-- The seven commands (30 R101). -/
def commands : List Instr := [.none, .reset, .softStart, .start, .ping, .softStop, .stop]

/-! ### Vocabulary: codes, written out from the tables of 30_encoding.md -/

/-- The codes of `eng_state` (30 R104). -/
def engCodes : List (EngState × BitVec 3) :=
  [(.idle, 0), (.softStart, 1), (.normal, 2), (.ping, 3), (.softStop, 4)]

/-- The codes of `phase` and of `sat_reduce_phase` (30 R105). -/
def phaseCodes : List (Phase × BitVec 1) := [(.positive, 0), (.negative, 1)]

/-- The codes of `ovl_state` (30 R106). -/
def ovlCodes : List (OvlState × BitVec 2) :=
  [(.none, 0), (.shortOverload, 1), (.sustainedOverload, 2), (.shutdown, 3)]

/-- The codes of `zc_state(j)` (30 R107). -/
def zcCodes : List (ZcState × BitVec 4) :=
  [(.init, 0), (.posWaitNeg1, 1), (.negWaitPos1, 2), (.posWaitNeg2, 3), (.negWaitPos2, 4),
   (.confirmNegPos, 5), (.posDetectOc, 6), (.confirmPosNeg, 7), (.negDetectOc, 8)]

/-! ### Vocabulary: events and runs -/

/-- The input ports sampled by one `eng_tick` (10 R60). -/
structure EngIn where
  fb : S16
  vbus : U16
  vbatt : U16
  rms : S16

/-- The `eng_tick` with those inputs. -/
def EngIn.event (p : EngIn) : Event := .engTick p.fb p.vbus p.vbatt p.rms

/-- `s` with these events, and no others, to come. -/
def withEvents (s : State) (es : List Event) : State := { s with events := es }

/-- The machine run through the events `es` from `s`, one step each. -/
def runs (s : State) (es : List Event) : Out := Sys2Proof.core.run es.length (withEvents s es)

/-- A read of the register at `offset` returns `w`, and is the event's only effect (20 R74, R78). -/
def readsWord (s : State) (offset : Nat) (w : U32) : Prop :=
  ∀ rest, step (withEvents s (.busRead (s.cfg.regBase + offset) 4 :: rest)) =
    .next { beginEvent rest s with busRdata := some w }

/-- A write of `v` at `offset` leads to `t`. -/
def writesTo (s : State) (offset : Nat) (v : U32) (rest : List Event) (t : State) : Prop :=
  step (withEvents s (.busWrite (s.cfg.regBase + offset) 4 v :: rest)) = .next t

/-- One `zc_tick(j)` with the sample `ac` gives instance `j` the state `z` and the pulses `p`, and
changes nothing else (45 R331, 10 R50). -/
def zcTicksTo (s : State) (j : ZcId) (ac : U16) (z : ZcInst) (p : ZcPulses) : Prop :=
  ∀ rest, step (withEvents s (.zcTick j ac :: rest)) =
    .next (setZcOut j (z, p) { beginEvent rest s with ports.acRaw := ac })

/-- The moving average that this sample makes (45 R312). -/
def average (z : ZcInst) (ac : U16) : Nat := (ac.toNat + z.s0.toNat + z.s1.toNat) / 3

/-- The instance after the filter has taken the sample (45 R312, R313). -/
def filtered (z : ZcInst) (ac : U16) : ZcInst :=
  { z with s0 := ac, s1 := z.s0, s2 := z.s1, avgPrev := BitVec.ofNat 16 (average z ac) }

/-- A positive-going crossing in this tick (45 R313). -/
def crossesUp (c : ZcCfg) (z : ZcInst) (ac : U16) : Prop :=
  z.avgPrev.toNat < c.zcThreshold.toNat ∧ c.zcThreshold.toNat ≤ average z ac

/-- A negative-going crossing in this tick (45 R313). -/
def crossesDown (c : ZcCfg) (z : ZcInst) (ac : U16) : Prop :=
  c.zcThreshold.toNat ≤ z.avgPrev.toNat ∧ average z ac < c.zcThreshold.toNat

/-- The filter is full and no stop is requested: the tick reaches its state's rule (45 R314). -/
def zcReady (z : ZcInst) : Prop := z.stopReq = false ∧ z.histFill = 3 ∧ z.havePrev = true

/-- The measured length `c` of 45 R314(6). -/
def measured (z : ZcInst) : Nat := min 65535 (z.count.toNat + 1)

/-- The length is in the band (45 R321). -/
def bandOk (c : ZcCfg) (n : Nat) : Prop := c.phaseCountMin.toNat ≤ n ∧ n ≤ c.phaseCountMax.toNat

/-- The instance after a re-synchronisation in this tick (45 R318). -/
def resynced (z : ZcInst) (ac : U16) : ZcInst :=
  { filtered z ac with zcState := .init, count := 0, posCount := 0, negCount := 0, outputting := false,
                       confirmLeft := 0 }

/-- The pulse of a re-synchronisation (45 R318). -/
def resyncPulse : ZcPulses := ⟨false, false, true⟩

end Sys2Proof.Claims

open Sys2Proof Sys2Proof.Machine Sys2Proof.Claims

/-! ### The Q16 arithmetic (41_q16_arithmetic.md) -/

/-- R183, R186, R187, R188: encoding, gain multiplication, division and the integer helpers compute on
integers and saturate once. A division by zero has no result (93 U5, notes/assumptions/17.md). -/
def Obligations.ArithmeticIsExactThenSaturated : Prop :=
  (∀ n : Int, (q16FromInt n).toInt = sat32 (n * 65536)) ∧
  (∀ g x : S32, (q16MulInt g x).toInt = gained g.toInt x.toInt) ∧
  (∀ a b : S32, (mul32 a b).toInt = a.toInt * b.toInt) ∧
  (∀ a b : S32, b.toInt ≠ 0 → ∃ r, div32 a b = some r ∧ r.toInt = sat32 (a.toInt.tdiv b.toInt)) ∧
  (∀ a b : S32, b.toInt ≠ 0 → ∃ r, q16Div a b = some r ∧ r.toInt = sat32 ((a.toInt * 65536).tdiv b.toInt)) ∧
  (∀ a b : S32, b.toInt = 0 → div32 a b = none ∧ q16Div a b = none)

/-- R184, R185 and the laws the spec derives in them: the integer part truncates toward zero and undoes the
encoding; the Q16 product is commutative, odd-symmetric where neither side saturates, and 1.0 is its unit. -/
def Obligations.FixedPointLaws : Prop :=
  (∀ p : S32, (q16Int p).toInt = p.toInt.tdiv 65536) ∧
  (∀ n : Int, -32768 ≤ n → n ≤ 32767 → (q16Int (q16FromInt n)).toInt = n) ∧
  (∀ a b : S32, (q16Mul a b).toInt = sat32 ((a.toInt * b.toInt).tdiv 65536)) ∧
  (∀ a b : S32, q16Mul a b = q16Mul b a) ∧
  (∀ a b a' : S32, a'.toInt = -a.toInt → ((a.toInt * b.toInt).tdiv 65536).natAbs ≤ 2147483647 →
    (q16Mul a' b).toInt = -(q16Mul a b).toInt) ∧
  (∀ a : S32, q16Mul a 0x10000 = a)

/-- R189: the bit-by-bit method gives the floor square root; it is monotone and exact on squares. -/
def Obligations.SquareRootIsTheFloorRoot : Prop :=
  (∀ n : U32, (isqrt32 n).toNat * (isqrt32 n).toNat ≤ n.toNat ∧
    n.toNat < ((isqrt32 n).toNat + 1) * ((isqrt32 n).toNat + 1)) ∧
  (∀ m n : U32, m.toNat ≤ n.toNat → (isqrt32 m).toNat ≤ (isqrt32 n).toNat) ∧
  (∀ n : U32, ∀ k : U16, n.toNat = k.toNat * k.toNat → isqrt32 n = k)

/-- R190: the battery scaling, with no scaling at 0, and its direction: a battery below nominal gives a
value no smaller, one above nominal a value no larger. -/
def Obligations.BatteryScalingCompensates : Prop :=
  ∀ (c : Cfg) (x v : U16),
    (scaleByVBatt c x v).toNat = scaled c.vbattNominal.toNat x.toNat v.toNat ∧
    (v.toNat ≤ c.vbattNominal.toNat → x.toNat ≤ (scaleByVBatt c x v).toNat) ∧
    (c.vbattNominal.toNat ≤ v.toNat → (scaleByVBatt c x v).toNat ≤ x.toNat)

/-! ### Encodings (30_encoding.md) -/

/-- Sanity: words written out from the tables of R101 and R118, one for each format and register. -/
def Obligations.TableWordsDecode : Prop :=
  decodeCmd 0b00000010#8 = .ok .softStart ∧ decodeCmd 0b00000110#8 = .ok .stop ∧
  decodeWrite 0x28 0b1#32 = .ok [.ovlReset] ∧ decodeWrite 0x3C 0b10#32 = .ok [.zcStopInv] ∧
  decodeWrite 0x3C 0b11#32 = .ok [.zcStopChg, .zcStopInv] ∧
  decodeWrite 0x04 0b10000#32 = .ok [.clrOutShorted]

/-- Decode and encode agree, whatever stands in the bits that are not decoded (R101, R102, R118): the
encoded command byte under any upper bits is that command, the encoded control bit among any others is
among the operations carried, alone it is the only one, and laying a word out as bytes loses nothing. -/
def Obligations.DecodeUndoesEncode : Prop :=
  (∀ i : Instr, i.format = .cmd8 → ∀ hi : BitVec 24,
    decodeWrite (carrier i) (hi ++ (encode i).setWidth 8) = .ok [i]) ∧
  (∀ i : Instr, i.format = .ctrl32 → ∀ w : U32, i ∈ decodeCtrl (carrier i) (w ||| encode i)) ∧
  (∀ i : Instr, decodeWrite (carrier i) (encode i) = .ok [i]) ∧
  (∀ (offset : Nat) (w : U32), decodeBytes offset (bytesOfWord w) = decodeWrite offset w)

/-- R118: a control word carries exactly the operations of its offset whose bit is set, each once. -/
def Obligations.ControlWordCarriesItsSetBits : Prop :=
  ∀ (offset : Nat) (w : U32),
    (decodeCtrl offset w).Nodup ∧
    ∀ i, i ∈ decodeCtrl offset w ↔
      i.format = .ctrl32 ∧ offset = carrier i ∧ w &&& encode i = encode i

/-- R103: a command byte is reserved exactly from 0x07 on. -/
def Obligations.CodesFromSevenAreReserved : Prop :=
  ∀ b : U8, (∃ e, decodeCmd b = .error e) ↔ 7 ≤ b.toNat

/-! ### A step runs the decoded instruction -/

/-- An `eng_tick` whose latch holds a command runs that command's meaning on the state the event starts
in, with the event's inputs on the ports; an INVERTER `pwm_tick` does so and then ticks instance INV (40
R150, 60 R411). -/
def Obligations.StepRunsTheLatchedCommand : Prop :=
  ∀ (s : State) (i : Instr) (p : EngIn) (ac : U16) (rest : List Event),
    s.cfg.valid = true → decodeCmd s.cmdLatch = .ok i →
    step (withEvents s (p.event :: rest)) =
      exec i { beginEvent rest s with
        ports.fbIn := p.fb, ports.vbusIn := p.vbus, ports.vbattAvg := p.vbatt, ports.rmsOffset := p.rms } ∧
    step (withEvents s (.pwmTick .inverter p.fb p.vbus p.vbatt p.rms ac :: rest)) =
      andThen (exec i { beginEvent rest s with
        ports.handler := .inverter, ports.fbIn := p.fb, ports.vbusIn := p.vbus,
        ports.vbattAvg := p.vbatt, ports.rmsOffset := p.rms, ports.acRaw := ac })
        (fun t => .next (tickZc .inv t))

/-- A host write that carries one control operation runs its meaning at the write; one that carries two
runs both, the lower bit first (30 R118; the order is the model's, notes/assumptions/19.md). -/
def Obligations.StepRunsTheControlWord : Prop :=
  ∀ (s : State) (offset : Nat) (v : U32) (rest : List Event), s.cfg.valid = true →
    (∀ i, decodeWrite offset v = .ok [i] → i.format = .ctrl32 →
      step (withEvents s (.busWrite (s.cfg.regBase + offset) 4 v :: rest)) = exec i (beginEvent rest s)) ∧
    (∀ i k, decodeWrite offset v = .ok [i, k] →
      step (withEvents s (.busWrite (s.cfg.regBase + offset) 4 v :: rest)) =
        andThen (exec i (beginEvent rest s)) (exec k))

/-- R139: an `eng_tick` that finds a reserved code empties the latch and runs as for NONE. -/
def Obligations.ReservedCodeIsDiscarded : Prop :=
  ∀ (s : State) (p : EngIn) (rest : List Event), s.cfg.valid = true → 7 ≤ s.cmdLatch.toNat →
    step (withEvents s (p.event :: rest)) =
        step (withEvents { s with cmdLatch := 0 } (p.event :: rest)) ∧
    ∀ t, step (withEvents s (p.event :: rest)) = .next t → t.cmdLatch = 0

/-! ### The register space (20_memory.md, 30_encoding.md) -/

/-- R80: a write to CMD fills the latch with bits 7:0 and changes nothing else. -/
def Obligations.CommandWriteFillsOnlyTheLatch : Prop :=
  ∀ (s : State) (v : U32) (rest : List Event), s.cfg.valid = true →
    ∃ t, writesTo s 0x00 v rest t ∧ t.cmdLatch.toNat = v.toNat % 256 ∧
      t = { beginEvent rest s with cmdLatch := t.cmdLatch }

/-- R81, R82, R83: the three control registers act on their decoded bits, whatever the other bits, and
change nothing else. -/
def Obligations.ControlRegistersActOnTheirBits : Prop :=
  ∀ (s : State) (v : U32) (rest : List Event), s.cfg.valid = true →
    writesTo s 0x04 v rest { beginEvent rest s with
      flags := ⟨s.flags.feedbackReversed && !v.getLsbD 3, s.flags.outputShorted && !v.getLsbD 4⟩ } ∧
    writesTo s 0x28 v rest { beginEvent rest s with
      ovl := if v.getLsbD 0 then
          ⟨false, 0, .none, 0, 0, s.ovl.retryCount, false⟩
        else s.ovl } ∧
    writesTo s 0x3C v rest { beginEvent rest s with
      zcChg := { s.zcChg with stopReq := s.zcChg.stopReq || v.getLsbD 0 }
      zcInv := { s.zcInv with stopReq := s.zcInv.stopReq || v.getLsbD 1 } }

/-- R75, R76, R77: a write elsewhere, of another width or outside the space changes nothing, and a read
that is not performed, or of a write-only or reserved register, returns 0. That an access which is not
performed is no refusal of the model is its choice (notes/assumptions/10.md). -/
def Obligations.OtherAccessesDoNothing : Prop :=
  ∀ (s : State) (addr bytes : Nat) (v : U32) (rest : List Event), s.cfg.valid = true →
    (bytes ≠ 4 ∨ addr < s.cfg.regBase ∨ (addr - s.cfg.regBase) % 4 ≠ 0 ∨ 0x80000 ≤ addr - s.cfg.regBase ∨
        addr - s.cfg.regBase ∉ [0x00, 0x04, 0x28, 0x3C] →
      step (withEvents s (.busWrite addr bytes v :: rest)) = .next (beginEvent rest s)) ∧
    (bytes ≠ 4 ∨ addr < s.cfg.regBase ∨ (addr - s.cfg.regBase) % 4 ≠ 0 ∨ 0x80000 ≤ addr - s.cfg.regBase ∨
        addr - s.cfg.regBase ∈ [0x28, 0x3C, 0x7C] ∨
        (0x8C ≤ addr - s.cfg.regBase ∧ addr - s.cfg.regBase < 0x400) ∨
        (0x800 ≤ addr - s.cfg.regBase ∧ addr - s.cfg.regBase < 0x40000) →
      step (withEvents s (.busRead addr bytes :: rest)) =
        .next { beginEvent rest s with busRdata := some 0 })

/-- R45: the bits of STATUS, and nothing above them. -/
def Obligations.StatusBits : Prop :=
  ∀ s : State, s.cfg.valid = true → ∃ w, readsWord s 0x04 w ∧ w.toNat < 1024 ∧
    (w.getLsbD 0 = true ↔ s.seq.engState ≠ .idle) ∧ (w.getLsbD 1 = s.ovl.event) ∧
    (w.getLsbD 2 = true ↔ s.ovl.state = .shutdown) ∧ (w.getLsbD 3 = s.flags.feedbackReversed) ∧
    (w.getLsbD 4 = s.flags.outputShorted) ∧ (w.getLsbD 5 = s.zcChg.outputting) ∧
    (w.getLsbD 6 = s.zcInv.outputting) ∧ (w.getLsbD 7 = s.flatTop.active) ∧
    (w.getLsbD 8 = s.ovl.vdsThresholdActive) ∧ (w.getLsbD 9 = true ↔ s.cmdLatch.toNat ≠ 0)

/-- R110 to R116 with the codes of R104 to R107: the fields of the packed registers, each state under its
code; what stands between the fields reads 0. -/
def Obligations.RegisterFields : Prop :=
  ∀ s : State, s.cfg.valid = true →
    (∃ w, readsWord s 0x00 w ∧ w.toNat = s.cmdLatch.toNat) ∧
    (∃ w, readsWord s 0x08 w ∧ (s.seq.engState, w.extractLsb' 0 3) ∈ engCodes ∧
      (s.seq.phase, w.extractLsb' 3 1) ∈ phaseCodes ∧ w.getLsbD 4 = s.flatTop.active ∧
      w.getLsbD 5 = s.safe.kiSafeSel ∧ w.extractLsb' 6 2 = s.ramp.normHalves ∧
      w.extractLsb' 8 8 = 0 ∧ w.extractLsb' 16 16 = s.seq.idx) ∧
    (∃ w, readsWord s 0x0C w ∧ w.extractLsb' 0 16 = s.ramp.multiplier ∧ w.extractLsb' 16 16 = s.ramp.rampInc) ∧
    readsWord s 0x10 s.pid.integralSum ∧ readsWord s 0x14 s.pid.prevError ∧
    readsWord s 0x18 s.pid.savedIntegralSum ∧
    (∃ w, readsWord s 0x1C w ∧ w.extractLsb' 0 16 = s.flatTop.endIdx ∧ w.extractLsb' 16 16 = s.ramp.hcCount) ∧
    (∃ w, readsWord s 0x20 w ∧ w.extractLsb' 0 16 = s.drive.dutyOut ∧ w.extractLsb' 16 16 = s.rebal.zcOffset) ∧
    (∃ w, readsWord s 0x24 w ∧ w.extractLsb' 0 16 = s.drive.pdcA ∧ w.extractLsb' 16 16 = s.drive.pdcB) ∧
    (∃ w, readsWord s 0x2C w ∧ (s.ovl.state, w.extractLsb' 0 2) ∈ ovlCodes ∧
      w.getLsbD 2 = s.ovl.vdsThresholdActive ∧ w.getLsbD 3 = s.ovl.event ∧ w.extractLsb' 4 12 = 0 ∧
      w.extractLsb' 16 16 = s.ovl.skipNextPulseCount) ∧
    (∃ w, readsWord s 0x30 w ∧ w.extractLsb' 0 16 = s.ovl.cycleCount ∧ w.extractLsb' 16 16 = s.ovl.resetCount) ∧
    (∃ w, readsWord s 0x34 w ∧ w.toNat = s.ovl.retryCount.toNat) ∧
    (∃ w, readsWord s 0x38 w ∧ w.toNat < 16 ∧ w.getLsbD 0 = s.drive.ovrEnA ∧ w.getLsbD 1 = s.drive.ovrLvlA ∧
      w.getLsbD 2 = s.drive.ovrEnB ∧ w.getLsbD 3 = s.drive.ovrLvlB) ∧
    (∀ j, ∃ w, readsWord s (if j = .chg then 0x40 else 0x48) w ∧
      ((getZc s j).zcState, w.extractLsb' 0 4) ∈ zcCodes ∧ w.getLsbD 4 = (getZc s j).outputting ∧
      w.getLsbD 5 = (getZc s j).stopReq ∧ w.extractLsb' 6 10 = 0 ∧ w.extractLsb' 16 16 = (getZc s j).count) ∧
    (∀ j, ∃ w, readsWord s (if j = .chg then 0x44 else 0x4C) w ∧
      w.extractLsb' 0 16 = (getZc s j).posCount ∧ w.extractLsb' 16 16 = (getZc s j).negCount) ∧
    (∀ j, ∃ w, readsWord s (if j = .chg then 0x70 else 0x80) w ∧
      w.extractLsb' 0 16 = (getZc s j).s0 ∧ w.extractLsb' 16 16 = (getZc s j).s1) ∧
    (∀ j, ∃ w, readsWord s (if j = .chg then 0x74 else 0x84) w ∧
      w.extractLsb' 0 16 = (getZc s j).s2 ∧ w.extractLsb' 16 16 = (getZc s j).avgPrev) ∧
    (∀ j, ∃ w, readsWord s (if j = .chg then 0x78 else 0x88) w ∧
      w.extractLsb' 0 2 = (getZc s j).histFill ∧ w.getLsbD 2 = (getZc s j).havePrev ∧
      w.extractLsb' 3 13 = 0 ∧ w.extractLsb' 16 16 = (getZc s j).confirmLeft) ∧
    readsWord s 0x50 s.rebal.dutyAcc ∧ readsWord s 0x54 s.rebal.dutySumPos ∧
    readsWord s 0x58 s.rebal.dutySumNeg ∧ readsWord s 0x5C s.satDet.satAcc ∧
    readsWord s 0x60 s.satDet.satSumPos ∧ readsWord s 0x64 s.satDet.satSumNeg ∧
    (∃ w, readsWord s 0x68 w ∧ w.extractLsb' 0 16 = s.satDet.reduceAmt ∧ w.getLsbD 16 = s.satDet.reduceActive ∧
      (s.satDet.reducePhase, w.extractLsb' 17 1) ∈ phaseCodes ∧ w.extractLsb' 18 14 = 0) ∧
    (∃ w, readsWord s 0x6C w ∧ w.extractLsb' 0 16 = s.safe.safeCyclesLeft ∧ w.extractLsb' 16 16 = s.fbZeroCount)

/-- R117: the two indexed windows. A delay-line entry reads sign-extended, a table entry as it is, and
the rest of each window as 0. -/
def Obligations.IndexedWindows : Prop :=
  ∀ s : State, s.cfg.valid = true → EngInv s →
    (∀ k, k < 256 → ∃ w, readsWord s (0x400 + 4 * k) w ∧
      w.toInt = (s.fbDly.map BitVec.toInt).getD k 0 ∧ (s.cfg.fbDelay ≤ k → w = 0)) ∧
    (∀ i, i < 65536 → ∃ w, readsWord s (0x40000 + 4 * i) w ∧ w = s.cfg.table.getD i 0 ∧
      (s.cfg.n ≤ i → w = 0))

/-- After `hw_reset` every register reads 0, except OVERRIDE, which reads 5, and the table window (the
reset values of 20 R74), for every valid parameter record. -/
def Obligations.RegistersAfterReset : Prop :=
  ∀ c : Cfg, c.valid = true → ∀ k, k < 0x20000 →
    ∃ w, readsWord (State.resetWith c) (4 * k) w ∧
      w = if k = 0x38 / 4 then 5 else if 0x10000 ≤ k then c.table.getD (k - 0x10000) 0 else 0

/-! ### Reset (70_reset_and_hazards.md) -/

/-- R450: `hw_reset` sets every element to zero but the two overrides; the parameter record stands. -/
def Obligations.HwResetClearsAllState : Prop :=
  ∀ (s : State) (rest : List Event), s.cfg.valid = true →
    ∃ t, step (withEvents s (.hwReset :: rest)) = .next t ∧ t.cfg = s.cfg ∧ t.pulses = ⟨false, false, ⟨false, false, false⟩, ⟨false, false, false⟩⟩ ∧
      t.cmdLatch = 0 ∧ t.seq = ⟨.idle, .positive, 0⟩ ∧ t.ramp = ⟨0, 0, 0, 0, 0⟩ ∧ t.pid = ⟨0, 0, 0⟩ ∧
      t.flatTop = ⟨false, 0⟩ ∧ t.fbDly = List.replicate s.cfg.fbDelay 0 ∧ t.rebal = ⟨0, 0, 0, 0⟩ ∧
      t.satDet = ⟨0, 0, 0, false, .positive, 0⟩ ∧ t.safe = ⟨false, 0⟩ ∧ t.fbZeroCount = 0 ∧
      t.drive = ⟨0, 0, 0, true, true, false, false⟩ ∧ t.flags = ⟨false, false⟩ ∧
      t.ovl = ⟨false, 0, .none, 0, 0, 0, false⟩ ∧
      t.zcChg = ⟨.init, 0, 0, 0, false, 0, false, 0, 0, 0, 0, 0, false⟩ ∧
      t.zcInv = ⟨.init, 0, 0, 0, false, 0, false, 0, 0, 0, 0, 0, false⟩ ∧
      statusWord t = 0

/-- The state after `hw_reset` meets the whole invariant, for every valid parameter record; so does the
model's own `State.reset`, whose record is FIX8 (notes/assumptions/2.md). -/
def Obligations.ResetMeetsTheInvariant : Prop :=
  (∀ c : Cfg, c.valid = true → Inv (State.resetWith c)) ∧ Inv State.reset

/-! ### The commands (40_engine_commands.md) -/

/-- R131, R137 with R140, R141, R144, R290: RESET and STOP clear the engine in any state, empty the latch
and do nothing more; what the clear keeps is kept; done again, the same. -/
def Obligations.ResetAndStopClearTheEngine : Prop :=
  ∀ s : State, ∃ t, exec .reset s = .next t ∧ exec .stop s = .next t ∧
    t.seq = ⟨.idle, .positive, 0⟩ ∧ t.cmdLatch = 0 ∧ t.ramp = ⟨0, 0, 0, 0, 0⟩ ∧ t.pid = ⟨0, 0, 0⟩ ∧
    t.flatTop = ⟨false, 0⟩ ∧ t.fbDly = List.replicate s.fbDly.length 0 ∧ t.rebal = ⟨0, 0, 0, 0⟩ ∧
    t.satDet = ⟨0, 0, 0, false, .positive, 0⟩ ∧ t.safe = ⟨false, s.safe.safeCyclesLeft⟩ ∧
    t.fbZeroCount = 0 ∧ t.drive = ⟨0, 0, 0, true, true, false, false⟩ ∧
    t.pulses = { s.pulses with halfCycle := false, fullCycle := false } ∧
    t.cfg = s.cfg ∧ t.flags = s.flags ∧ t.ovl = s.ovl ∧ t.zcChg = s.zcChg ∧ t.zcInv = s.zcInv ∧
    t.ports = s.ports ∧ t.busRdata = s.busRdata ∧ t.events = s.events ∧
    exec .reset t = .next t ∧ exec .stop t = .next t

/-- R130, R151: NONE in IDLE forces the outputs off, leaves the latch alone and changes nothing else. -/
def Obligations.IdleTickOnlyHoldsTheOutputsOff : Prop :=
  ∀ s : State, s.seq.engState = .idle →
    exec .none s = .next { s with
      drive := ⟨0, 0, 0, true, true, false, false⟩
      pulses := { s.pulses with halfCycle := false, fullCycle := false } } ∧
    (EngInv s → ∃ t, exec .none s = .next t ∧ t.drive = s.drive)

/-- R132, R133: away from a safe transition point a command is left in the latch and the tick is that of
NONE; at one the latch is emptied, and a command the state does not accept has no other effect: any of
them in NORMAL but SOFT_STOP, SOFT_STOP in IDLE, and every start in IDLE that R142 forbids. -/
def Obligations.CommandsWaitOrAreDiscarded : Prop :=
  ∀ (s : State) (i : Instr), i ∈ waitingCommands →
    (s.seq.engState = .softStart ∨ s.seq.engState = .ping ∨ s.seq.engState = .softStop ∨
      (s.seq.engState = .normal ∧ ¬ (s.seq.phase = .positive ∧ s.seq.idx = 0)) →
      exec i s = exec .none s) ∧
    (s.seq.engState = .normal → s.seq.phase = .positive → s.seq.idx = 0 → s.ovl.state ≠ .shutdown →
      i ≠ .softStop → exec i s = exec .none { s with cmdLatch := 0 }) ∧
    (s.seq.engState = .idle →
      i = .softStop ∨ s.flags.feedbackReversed = true ∨ s.flags.outputShorted = true ∨ s.ovl.state = .shutdown →
      exec i s = exec .none { s with cmdLatch := 0 })

/-- R134, R136: SOFT_START and PING in IDLE, when a start is allowed, are applied and their first sample is
computed in the same tick: index 0 of the POSITIVE half-cycle, open loop, with the ramp's first
multiplier. All that changes is given. -/
def Obligations.SoftStartAndPingFirstTick : Prop :=
  ∀ (s : State) (i : Instr), (i = .softStart ∨ i = .ping) →
    s.cfg.valid = true → EngInv s → s.seq.engState = .idle →
    s.flags.feedbackReversed = false → s.flags.outputShorted = false → s.ovl.state ≠ .shutdown →
    ∃ t, exec i s = .next t ∧ t.cmdLatch = 0 ∧
      t.seq = ⟨if i = .softStart then .softStart else .ping, .positive, 1⟩ ∧
      t.ramp.rampInc.toNat = max 1 (scaled s.cfg.vbattNominal.toNat
        (if i = .softStart then s.cfg.softStartMaxDuty.toNat / s.cfg.softStartCycles.toNat
          else s.cfg.pingInc.toNat) s.ports.vbattAvg.toNat) ∧
      t.ramp = ⟨t.ramp.rampInc, t.ramp.rampInc, 0, 0, 0⟩ ∧
      t.safe = ⟨s.safe.safeCyclesLeft != 0, s.safe.safeCyclesLeft⟩ ∧
      driven s t (max s.cfg.minDuty.toNat
        (min (tableAt s * t.ramp.rampInc.toNat / 65536) s.cfg.maxDuty.toNat) : Nat) ∧
      lined s t ∧ t.rebal.dutyAcc.toNat = t.drive.dutyOut.toNat ∧
      t.satDet.satAcc.toNat = (if s.cfg.satTailStart = 0 then s.ports.vbusIn.toNat else 0) ∧
      t = { s with
        cmdLatch := t.cmdLatch, seq := t.seq, ramp := t.ramp, safe := t.safe, drive := t.drive, ovl := t.ovl
        fbDly := t.fbDly
        rebal.dutyAcc := t.rebal.dutyAcc
        satDet.satAcc := t.satDet.satAcc
        pulses.halfCycle := false, pulses.fullCycle := false }

/-- START in IDLE goes to NORMAL at the end multiplier of the ramp and computes index 0 closed-loop from a
clear PID state. The source does not say what START does: the spec's choice D18 (40 R135,
notes/assumptions/11.md). -/
def Obligations.StartEntersNormalDirectly : Prop :=
  ∀ s : State, s.cfg.valid = true → EngInv s → s.seq.engState = .idle →
    s.flags.feedbackReversed = false → s.flags.outputShorted = false → s.ovl.state ≠ .shutdown →
    ∃ t m, exec .start s = .next t ∧ t.cmdLatch = 0 ∧ t.seq = ⟨.normal, .positive, 1⟩ ∧
      m.toNat = scaled s.cfg.vbattNominal.toNat s.cfg.softStartMaxDuty.toNat s.ports.vbattAvg.toNat ∧
      t.ramp.rampInc.toNat = max 1 (scaled s.cfg.vbattNominal.toNat
        (s.cfg.softStartMaxDuty.toNat / s.cfg.softStartCycles.toNat) s.ports.vbattAvg.toNat) ∧
      t.ramp = ⟨m, t.ramp.rampInc, 0, 0, 0⟩ ∧
      t.safe = ⟨s.safe.safeCyclesLeft != 0, s.safe.safeCyclesLeft⟩ ∧
      (let r := normalResult { s with ramp.multiplier := m, safe := t.safe }
       driven s t r.duty ∧ t.pid.integralSum.toInt = r.integral ∧ t.pid.prevError.toInt = r.prevError ∧
       t.pid.savedIntegralSum.toInt = r.saved ∧ t.flatTop.active = r.active ∧
       t.flatTop.endIdx.toNat = r.endIdx) ∧
      lined s t ∧
      t = { s with
        cmdLatch := t.cmdLatch, seq := t.seq, ramp := t.ramp, safe := t.safe, drive := t.drive, ovl := t.ovl
        fbDly := t.fbDly, pid := t.pid, flatTop := t.flatTop
        rebal.dutyAcc := t.drive.dutyOut.setWidth 32
        satDet.satAcc := if s.cfg.satTailStart = 0 then s.ports.vbusIn.setWidth 32 else 0
        pulses.halfCycle := false, pulses.fullCycle := false }

/-- R138: SOFT_STOP at the start of a full cycle in NORMAL is accepted, and the tick computes index 0 open
loop in SOFT_STOP; multiplier and increment are kept. -/
def Obligations.SoftStopAtTheStartOfACycle : Prop :=
  ∀ s : State, ticking s → s.seq = ⟨.normal, .positive, 0⟩ →
    ∃ t, exec .softStop s = .next t ∧ t.cmdLatch = 0 ∧ t.seq = ⟨.softStop, .positive, 1⟩ ∧
      driven s t (openDuty s) ∧ lined s t ∧
      t = { s with
        cmdLatch := t.cmdLatch, seq := t.seq, drive := t.drive, ovl := t.ovl, fbDly := t.fbDly
        rebal.dutyAcc := t.drive.dutyOut.setWidth 32
        satDet.satAcc := if s.cfg.satTailStart = 0 then s.ports.vbusIn.setWidth 32 else 0
        pulses.halfCycle := false, pulses.fullCycle := false }

/-- R143: with the overload machine in SHUTDOWN the next tick of an active engine clears it, whatever
command waits, and leaves the latch alone; the clear is that of RESET. -/
def Obligations.ShutdownForcesTheStop : Prop :=
  ∀ (s : State) (i : Instr), i ∈ commands → i ≠ .reset → i ≠ .stop →
    s.ovl.state = .shutdown → s.seq.engState ≠ .idle →
    ∃ t u, exec i s = .next t ∧ exec .reset s = .next u ∧ t = { u with cmdLatch := s.cmdLatch }

/-- Frame of the seven commands: the parameter record, both zero-crossing instances, the inputs and the
events are left alone; the overload group but for the skip count, which only falls by one; a fault flag is
only ever set; the latch is kept or emptied (10 R21, R33, 40 R140, 46 R365). -/
def Obligations.CommandsTouchOnlyTheEngine : Prop :=
  ∀ (s t : State) (i : Instr), i ∈ commands → exec i s = .next t →
    t.cfg = s.cfg ∧ t.zcChg = s.zcChg ∧ t.zcInv = s.zcInv ∧ t.ports = s.ports ∧ t.events = s.events ∧
    t.busRdata = s.busRdata ∧ t.pulses.chg = s.pulses.chg ∧ t.pulses.inv = s.pulses.inv ∧
    (t.ovl = s.ovl ∨ (s.ovl.skipNextPulseCount ≠ 0 ∧
      t.ovl = { s.ovl with skipNextPulseCount := s.ovl.skipNextPulseCount - 1 })) ∧
    (s.flags.feedbackReversed = true → t.flags.feedbackReversed = true) ∧
    (s.flags.outputShorted = true → t.flags.outputShorted = true) ∧
    (t.cmdLatch = s.cmdLatch ∨ t.cmdLatch = 0) ∧ (i = .none → t.cmdLatch = s.cmdLatch)

/-- The five control writes complete in every state with exactly these effects (46 R379, 45 R319, 20 R82,
R83). -/
def Obligations.ControlWritesComplete : Prop :=
  ∀ s : State,
    exec .ovlReset s = .next { s with ovl := ⟨false, 0, .none, 0, 0, s.ovl.retryCount, false⟩ } ∧
    exec .zcStopChg s = .next { s with zcChg.stopReq := true } ∧
    exec .zcStopInv s = .next { s with zcInv.stopReq := true } ∧
    exec .clrFbReversed s = .next { s with flags.feedbackReversed := false } ∧
    exec .clrOutShorted s = .next { s with flags.outputShorted := false }

/-! ### One tick inside a half-cycle -/

/-- R152, R161 with R213, R214, R232, R270, R280, R292, R296: a tick of SOFT_START, PING or SOFT_STOP
inside a half-cycle drives the clamped product of table value and multiplier, runs the reversed-feedback
test in SOFT_START at the peak, shifts the line, sums and advances; the PID corrector does not run. -/
def Obligations.OpenLoopTick : Prop :=
  ∀ s : State, ticking s → s.seq.engState ≠ .normal → s.seq.idx.toNat + 1 < s.cfg.n →
    ∃ t e, exec .none s = .next t ∧ stateAfterTests s e ∧ t.seq = ⟨e, s.seq.phase, s.seq.idx + 1⟩ ∧
      flagsAfterTests s t ∧ driven s t (openDuty s) ∧ lined s t ∧
      t.rebal.dutyAcc.toNat = dutySum s t ∧ t.satDet.satAcc.toNat = tailSum s ∧
      t = { s with
        seq := t.seq, flags := t.flags, drive := t.drive, ovl := t.ovl, fbDly := t.fbDly
        rebal.dutyAcc := t.rebal.dutyAcc
        satDet.satAcc := t.satDet.satAcc
        pulses.halfCycle := false, pulses.fullCycle := false }

/-- A tick of NORMAL inside a half-cycle: the near-zero test at the peak (44 R297); if it fails the tick is
open-loop in SOFT_STOP and the PID state stays as it is, else duty, PID state and flat-top window are those
of the closed-loop computation of 43 R234 on integers (43 R235 to R242, 44 R261 to R266, R284). That the
PID state outlives a failed test until the boundary is the spec's inference 44 R267(e)
(notes/assumptions/18.md). -/
def Obligations.ClosedLoopTick : Prop :=
  ∀ s : State, ticking s → s.seq.engState = .normal → s.seq.idx.toNat + 1 < s.cfg.n →
    ∃ t e, exec .none s = .next t ∧ stateAfterTests s e ∧ t.seq = ⟨e, s.seq.phase, s.seq.idx + 1⟩ ∧
      flagsAfterTests s t ∧ t.fbZeroCount.toNat = zeroCountNow s ∧ lined s t ∧
      (e = .softStop → driven s t (openDuty s) ∧ t.pid = s.pid ∧ t.flatTop = s.flatTop) ∧
      (e = .normal → driven s t (normalResult s).duty ∧
        t.pid.integralSum.toInt = (normalResult s).integral ∧
        t.pid.prevError.toInt = (normalResult s).prevError ∧
        t.pid.savedIntegralSum.toInt = (normalResult s).saved ∧
        t.flatTop.active = (normalResult s).active ∧ t.flatTop.endIdx.toNat = (normalResult s).endIdx) ∧
      t.rebal.dutyAcc.toNat = dutySum s t ∧ t.satDet.satAcc.toNat = tailSum s ∧
      t = { s with
        seq := t.seq, flags := t.flags, drive := t.drive, ovl := t.ovl, fbDly := t.fbDly, pid := t.pid
        flatTop := t.flatTop, fbZeroCount := t.fbZeroCount
        rebal.dutyAcc := t.rebal.dutyAcc
        satDet.satAcc := t.satDet.satAcc
        pulses.halfCycle := false, pulses.fullCycle := false }

/-- R264, R265, R266: the flat-top window of a half-cycle. Opened at index k ≤ N/2 it ends at N - k; inside
it the integral is held at 0 and the duty, before a saturation reduction, is FLAT_TOP_DUTY; at its end the
saved sum is the one the update starts from; and on the falling side no window opens. -/
def Obligations.FlatTopWindow : Prop :=
  ∀ s t : State, ticking s → s.seq.engState = .normal → s.seq.idx.toNat + 1 < s.cfg.n →
    exec .none s = .next t → t.seq.engState = .normal →
    (s.flatTop.active = false → t.flatTop.active = true →
      s.seq.idx.toNat ≤ s.cfg.n / 2 ∧ t.flatTop.endIdx.toNat = s.cfg.n - s.seq.idx.toNat) ∧
    (t.flatTop.active = true → t.pid.integralSum = 0 ∧
      (s.satDet.reduceActive = false → s.ovl.skipNextPulseCount = 0 →
        t.drive.dutyOut = s.cfg.flatTopDuty)) ∧
    (s.flatTop.active = true → s.seq.idx.toNat < s.flatTop.endIdx.toNat →
      t.flatTop = s.flatTop ∧ t.pid.savedIntegralSum = s.pid.savedIntegralSum) ∧
    (s.flatTop.active = true → s.flatTop.endIdx.toNat ≤ s.seq.idx.toNat → s.cfg.n < 2 * s.seq.idx.toNat →
      t.flatTop.active = false ∧ t.pid.integralSum.toInt =
        max (-s.cfg.iLimit.toInt) (min (s.pid.savedIntegralSum.toInt + t.pid.prevError.toInt)
          s.cfg.iLimit.toInt)) ∧
    (s.cfg.n < 2 * s.seq.idx.toNat → s.flatTop.active = false → t.flatTop.active = false)

/-! ### The half-cycle boundary -/

/-- R215: the tick of the last index. It drives its duty, closed-loop in NORMAL and open-loop elsewhere. If
the run does not end there, the phase flips, the index restarts, the PID state and the window are cleared,
the sums move to the half-cycle that ended, the half-cycle is pulsed, the full cycle exactly when the new
phase is POSITIVE, and norm_halves counts NORMAL half-cycles; in NORMAL the ramp is kept, and the offset
changes at the end of a full cycle of NORMAL only. No reduction is in force after a full cycle that ends in
NORMAL and was not computed in it (R216); where a boundary ends no full cycle in NORMAL the reduction is kept,
and the safe gain too except where the soft start hands over (43 R242). If the run ends there, the clear is
that of `idle_entry()` (70 R451). -/
def Obligations.HalfCycleBoundary : Prop :=
  ∀ s : State, ticking s → s.seq.idx.toNat + 1 = s.cfg.n →
    ∃ t e, exec .none s = .next t ∧ stateAfterTests s e ∧ flagsAfterTests s t ∧ t.cmdLatch = s.cmdLatch ∧
      (e = .normal → t.seq.engState = .normal) ∧
      (t.seq.engState = .idle → endedInIdle s t) ∧
      (t.seq.engState ≠ .idle →
        t.seq.idx = 0 ∧ t.seq.phase = (if s.seq.phase = .positive then .negative else .positive) ∧
        pidClear t ∧ t.rebal.dutyAcc = 0 ∧ t.satDet.satAcc = 0 ∧ lined s t ∧
        (s.seq.phase = .positive → t.rebal.dutySumPos.toNat = dutySum s t ∧
          t.rebal.dutySumNeg = s.rebal.dutySumNeg ∧ t.satDet.satSumPos.toNat = tailSum s ∧
          t.satDet.satSumNeg = s.satDet.satSumNeg) ∧
        (s.seq.phase = .negative → t.rebal.dutySumNeg.toNat = dutySum s t ∧
          t.rebal.dutySumPos = s.rebal.dutySumPos ∧ t.satDet.satSumNeg.toNat = tailSum s ∧
          t.satDet.satSumPos = s.satDet.satSumPos) ∧
        t.pulses.halfCycle = true ∧ (t.pulses.fullCycle = true ↔ s.seq.phase = .negative) ∧
        t.ramp.normHalves.toNat = (if e = .normal then min 2 (s.ramp.normHalves.toNat + 1) else 0) ∧
        driven s t (if e = .normal then (normalResult s).duty else openDuty s) ∧
        t.fbZeroCount.toNat = zeroCountNow s ∧
        (e = .normal → t.ramp = { s.ramp with normHalves := t.ramp.normHalves }) ∧
        (s.seq.phase = .positive ∨ e ≠ .normal → t.rebal.zcOffset = s.rebal.zcOffset) ∧
        (s.seq.phase = .positive ∨ t.seq.engState ≠ .normal →
          t.satDet.reduceActive = s.satDet.reduceActive ∧ t.satDet.reducePhase = s.satDet.reducePhase ∧
          t.satDet.reduceAmt = s.satDet.reduceAmt) ∧
        (s.seq.phase = .negative → e ≠ .normal → t.seq.engState = .normal →
          t.satDet.reduceActive = false ∧ t.satDet.reduceAmt = 0 ∧
          t.satDet.reducePhase = s.satDet.reducePhase) ∧
        (t.seq.engState ≠ .normal ∨ (e = .normal ∧ s.seq.phase = .positive) → t.safe = s.safe) ∧
        t = { s with
          seq := t.seq, ramp := t.ramp, pid := t.pid, flatTop := t.flatTop, fbDly := t.fbDly, rebal := t.rebal
          satDet := t.satDet, safe := t.safe, fbZeroCount := t.fbZeroCount, drive := t.drive
          flags := t.flags, ovl := t.ovl
          pulses.halfCycle := t.pulses.halfCycle, pulses.fullCycle := t.pulses.fullCycle })

/-- R160, R163, R165: what each ramp does at the boundary, the ramp-down also in the tick whose self-test
fails at the last index (a table of two entries). The half-cycles are counted beyond the 65535
that `hc_count` holds, where `hc_count` itself stays (the model's choice, notes/assumptions/12.md). -/
def Obligations.RampsAtTheBoundary : Prop :=
  ∀ s t : State, ticking s → s.seq.idx.toNat + 1 = s.cfg.n → exec .none s = .next t →
    (s.seq.engState = .softStart → ¬ reversedNow s →
      t.ramp.hcCount.toNat = s.ramp.hcCount.toNat + 1 ∧ halvesDone t.ramp = t.ramp.hcCount.toNat ∧
      (if s.cfg.softStartCycles.toNat ≤ s.ramp.hcCount.toNat + 1 then
        t.seq.engState = .normal ∧ t.ramp.multiplier.toNat =
          scaled s.cfg.vbattNominal.toNat s.cfg.softStartMaxDuty.toNat s.ports.vbattAvg.toNat ∧
        t.safe = ⟨s.safe.safeCyclesLeft != 0, s.safe.safeCyclesLeft⟩
      else
        t.seq.engState = .softStart ∧ t.safe = s.safe ∧ t.ramp.multiplier.toNat =
          min 65535 (s.ramp.multiplier.toNat + s.ramp.rampInc.toNat))) ∧
    (s.seq.engState = .ping →
      if 2 * s.cfg.pingRampHc.toNat ≤ halvesDone s.ramp + 1 then endedInIdle s t
      else t.seq.engState = .ping ∧ halvesDone t.ramp = halvesDone s.ramp + 1 ∧
        t.ramp.hcCount.toNat = min 65535 (s.ramp.hcCount.toNat + 1) ∧
        t.ramp.multiplier.toNat =
          if halvesDone s.ramp + 1 < s.cfg.pingRampHc.toNat then
            min 65535 (s.ramp.multiplier.toNat + s.ramp.rampInc.toNat)
          else if s.cfg.pingRampHc.toNat < halvesDone s.ramp + 1 then
            s.ramp.multiplier.toNat - s.ramp.rampInc.toNat
          else s.ramp.multiplier.toNat) ∧
    (s.seq.engState = .softStop ∨ reversedNow s ∨ shortedNow s →
      if s.ramp.multiplier.toNat ≤ s.ramp.rampInc.toNat then endedInIdle s t
      else t.seq.engState = .softStop ∧ t.ramp.hcCount = s.ramp.hcCount ∧
        halvesDone t.ramp = halvesDone s.ramp ∧ t.ramp.multiplier.toNat = s.ramp.multiplier.toNat - s.ramp.rampInc.toNat) ∧
    (t.seq.engState ≠ .idle → t.ramp.rampInc = s.ramp.rampInc)

/-- R216, R242(c), R272, R282: the full-cycle boundary in NORMAL. The safe window counts down, the gain is
selected; after two NORMAL halves the offset is nudged against the imbalance and the half-cycle with the
lower tail sum is marked for reduction, else no reduction is in force. Two clauses are the model's choice:
that the offset saturates into an s16 (notes/assumptions/13.md), and that the reduction amount is the exact
product with a difference of 2^31 or more, saturated once (notes/assumptions/22.md). -/
def Obligations.FullCycleInNormal : Prop :=
  ∀ s t : State, ticking s → s.seq.engState = .normal → ¬ shortedNow s → s.seq.phase = .negative →
    s.seq.idx.toNat + 1 = s.cfg.n → exec .none s = .next t →
    t.safe.safeCyclesLeft.toNat = s.safe.safeCyclesLeft.toNat - 1 ∧
    (t.safe.kiSafeSel = true ↔ 2 ≤ s.safe.safeCyclesLeft.toNat) ∧
    (s.ramp.normHalves = 0 → t.rebal.zcOffset = s.rebal.zcOffset ∧
      t.satDet.reduceActive = false ∧ t.satDet.reduceAmt = 0 ∧ t.satDet.reducePhase = s.satDet.reducePhase) ∧
    (s.ramp.normHalves ≠ 0 →
      (let imb : Int := s.rebal.dutySumPos.toNat - dutySum s t
       let step : Int := s.cfg.zcOffsetStep.toNat
       let top : Int := min s.cfg.zcOffsetMax.toNat 32767
       let bottom : Int := max (-(s.cfg.zcOffsetMax.toNat : Int)) (-32768)
       t.rebal.zcOffset.toInt =
        if (s.cfg.rebalanceThreshold.toNat : Int) < imb then max bottom (s.rebal.zcOffset.toInt - step)
        else if imb < -(s.cfg.rebalanceThreshold.toNat : Int) then min top (s.rebal.zcOffset.toInt + step)
        else s.rebal.zcOffset.toInt) ∧
      (let diff : Int := s.satDet.satSumPos.toNat - tailSum s
       if s.cfg.satThreshold.toNat < diff.natAbs then
        t.satDet.reduceActive = true ∧ (t.satDet.reducePhase = .positive ↔ diff < 0) ∧
        (t.satDet.reduceAmt.toNat : Int) =
          min 65535 (gained s.cfg.saturationDutyGain.toInt diff.natAbs)
       else t.satDet.reduceActive = false ∧ t.satDet.reduceAmt = 0))

/-- R242: the gain selection never changes inside a full cycle. A tick that keeps the engine active and
does not end a full cycle leaves `ki_safe_sel` and the window's count alone, except where the ramp hands
over to NORMAL. -/
def Obligations.GainChangesOnlyBetweenCycles : Prop :=
  ∀ (s t : State) (i : Instr), i ∈ commands → ticking s → exec i s = .next t → t.seq.engState ≠ .idle →
    t.pulses.fullCycle = false → ¬ (s.seq.engState = .softStart ∧ t.seq.engState = .normal) → t.safe = s.safe

/-! ### Overload protection (46_overload.md) -/

/-- R361 to R364, R403: the clamp. The sample's distance from the average, or from the nominal code while
the average is not valid, strictly above the threshold in force, forces the outputs off, loads the skip
count and sets the event; else nothing changes. -/
def Obligations.ClampTick : Prop :=
  ∀ (s : State) (i avg : U16) (valid : Bool) (rest : List Event), s.cfg.valid = true →
    let b : State := { beginEvent rest s with ports.iSample := i, ports.iCycleAvg := avg, ports.iAvgValid := valid }
    let zero : Int := if valid then avg.toNat else s.cfg.ovl.iZeroNominal.toNat
    let thr := if s.ovl.vdsThresholdActive then s.cfg.ovl.vdsThreshold.toNat
      else s.cfg.ovl.imeasThreshold.toNat
    step (withEvents s (.sampleTick i avg valid :: rest)) =
      if thr < ((i.toNat : Int) - zero).natAbs then
        .next { b with
          ovl.skipNextPulseCount := s.cfg.ovl.skipPulses, ovl.event := true
          drive := ⟨0, 0, 0, true, true, false, false⟩ }
      else .next b

/-- R370 to R377: one escalation step by its table (R380), on the natural values of the counters. The
event is consumed and the lockout counts down in every state. -/
def Obligations.EscalationStep : Prop :=
  ∀ (s : State) (irms : U16) (rest : List Event), s.cfg.valid = true → OvlInv s →
    ∃ t, step (withEvents s (.zcTask irms :: rest)) = .next t ∧
      t = { beginEvent rest s with ports.iRms := irms, ovl := t.ovl } ∧
      t.ovl.event = false ∧ t.ovl.skipNextPulseCount = s.ovl.skipNextPulseCount ∧
      (let cond : Prop := s.cfg.ovl.rmsThreshold.toNat < irms.toNat ∨ s.ovl.event = true
       let retry := s.ovl.retryCount.toNat - 1
       let cycle := s.ovl.cycleCount.toNat + 1
       let clears : Prop := ¬ cond ∧ s.cfg.ovl.resetCount.toNat ≤ s.ovl.resetCount.toNat + 1
       let cleared : Prop := t.ovl.state = .none ∧ t.ovl.vdsThresholdActive = false ∧ t.ovl.cycleCount = 0 ∧
         t.ovl.resetCount = 0 ∧ t.ovl.retryCount.toNat = retry
       let counted : Prop := t.ovl.cycleCount.toNat = cycle ∧ (cond → t.ovl.resetCount = 0) ∧
         (¬ cond → t.ovl.resetCount.toNat = s.ovl.resetCount.toNat + 1) ∧ t.ovl.retryCount.toNat = retry
       (s.ovl.state = .none → ¬ cond → cleared) ∧
       (s.ovl.state = .none → cond → t.ovl.cycleCount = 0 ∧ t.ovl.resetCount = 0 ∧
         t.ovl.retryCount.toNat = retry ∧
         (if retry = 0 then t.ovl.state = .shortOverload ∧ t.ovl.vdsThresholdActive = false
          else t.ovl.state = .sustainedOverload ∧ t.ovl.vdsThresholdActive = true)) ∧
       (s.ovl.state = .shortOverload ∨ s.ovl.state = .sustainedOverload → clears → cleared) ∧
       (s.ovl.state = .shortOverload → ¬ clears →
         if s.cfg.ovl.irmsTimeout.toNat ≤ cycle then
           t.ovl.state = .sustainedOverload ∧ t.ovl.vdsThresholdActive = true ∧ t.ovl.cycleCount = 0 ∧
           t.ovl.resetCount = 0 ∧ t.ovl.retryCount = s.cfg.ovl.retryLockout
         else t.ovl.state = .shortOverload ∧ t.ovl.vdsThresholdActive = false ∧ counted) ∧
       (s.ovl.state = .sustainedOverload → ¬ clears →
         (t.ovl.state = if s.cfg.ovl.vdsTimeout.toNat ≤ cycle then .shutdown else .sustainedOverload) ∧
         t.ovl.vdsThresholdActive = true ∧ counted) ∧
       (s.ovl.state = .shutdown → t.ovl.state = .shutdown ∧ t.ovl.vdsThresholdActive = true ∧
         t.ovl.cycleCount = s.ovl.cycleCount ∧ t.ovl.resetCount = s.ovl.resetCount ∧
         t.ovl.retryCount.toNat = retry))

/-- R381(a): under a condition that holds at every step, an episode from NONE with the lockout run out
is in the loose phase after step 1, in the tight phase from step 1 + OVL_IRMS_TIMEOUT and in SHUTDOWN from
step 1 + OVL_IRMS_TIMEOUT + OVL_VDS_TIMEOUT; and no input sequence from `hw_reset` reaches SHUTDOWN with
fewer `zc_task`s, whatever other events it holds. -/
def Obligations.ShutdownTakesBothPhases : Prop :=
  (∀ (s : State) (rms : List U16), s.cfg.valid = true → s.ovl.state = .none → s.ovl.retryCount = 0 →
    (∀ r ∈ rms, s.cfg.ovl.rmsThreshold.toNat < r.toNat) →
    ∃ t, runs s (rms.map Event.zcTask) = .next t ∧
      (1 ≤ rms.length → rms.length ≤ s.cfg.ovl.irmsTimeout.toNat → t.ovl.state = .shortOverload) ∧
      (1 + s.cfg.ovl.irmsTimeout.toNat ≤ rms.length →
        rms.length < 1 + s.cfg.ovl.irmsTimeout.toNat + s.cfg.ovl.vdsTimeout.toNat →
        t.ovl.state = .sustainedOverload) ∧
      (1 + s.cfg.ovl.irmsTimeout.toNat + s.cfg.ovl.vdsTimeout.toNat ≤ rms.length →
        t.ovl.state = .shutdown)) ∧
  (∀ (c : Cfg) (es : List Event) (t : State), c.valid = true → runs (State.resetWith c) es = .next t →
    t.ovl.state = .shutdown →
    1 + c.ovl.irmsTimeout.toNat + c.ovl.vdsTimeout.toNat ≤
      (es.filter fun e => match e with | .zcTask _ => true | _ => false).length)

/-- R376, R379: a step leaves SHUTDOWN only by `hw_reset` or by a write of `ovl_reset`, and while it lasts
no step starts the engine. -/
def Obligations.ShutdownIsLeftOnlyByReset : Prop :=
  ∀ (s t : State) (e : Event) (rest : List Event), s.ovl.state = .shutdown →
    step (withEvents s (e :: rest)) = .next t →
    (t.ovl.state = .shutdown ∨ e = .hwReset ∨
      (t.ovl.state = .none ∧ ∃ v : U32, e = .busWrite (s.cfg.regBase + 0x28) 4 v ∧ v.getLsbD 0 = true)) ∧
    (s.seq.engState = .idle → t.seq.engState = .idle)

/-! ### The zero-crossing protocol (45_zero_crossing_fsm.md) -/

/-- R312: the filter. Until three samples have been taken, and on the tick that makes the first average,
nothing but the filter changes and nothing is pulsed. -/
def Obligations.FilterFillsBeforeAnyCrossing : Prop :=
  ∀ (s : State) (j : ZcId) (ac : U16), s.cfg.valid = true → (getZc s j).stopReq = false →
    let z := getZc s j
    let z1 : ZcInst := { z with s0 := ac, s1 := z.s0, s2 := z.s1 }
    (z.histFill.toNat < 2 → zcTicksTo s j ac { z1 with histFill := z.histFill + 1 } ZcPulses.zero) ∧
    (2 ≤ z.histFill.toNat → z.havePrev = false →
      zcTicksTo s j ac { z1 with histFill := 3, havePrev := true, avgPrev := BitVec.ofNat 16 (average z ac) }
        ZcPulses.zero)

/-- R320: INIT waits for a positive-going crossing and does nothing else. -/
def Obligations.InitWaitsForACrossing : Prop :=
  ∀ (s : State) (j : ZcId) (ac : U16), s.cfg.valid = true → zcReady (getZc s j) →
    (getZc s j).zcState = .init →
    (crossesUp (zcCfg s.cfg j) (getZc s j) ac →
      zcTicksTo s j ac { filtered (getZc s j) ac with count := 0, zcState := .posWaitNeg1 } ZcPulses.zero) ∧
    (¬ crossesUp (zcCfg s.cfg j) (getZc s j) ac → zcTicksTo s j ac (filtered (getZc s j) ac) ZcPulses.zero)

/-- R321 to R324: the WAIT states. A length out of the band, a second length off the first by more than
the tolerance, or no crossing above PHASE_COUNT_MAX re-synchronises; an accepted crossing saves the
length, restarts the count and pulses; the fourth locks. A crossing the other way is ignored. -/
def Obligations.WaitStates : Prop :=
  ∀ (s : State) (j : ZcId) (ac : U16), s.cfg.valid = true → zcReady (getZc s j) →
    let z := getZc s j
    let c := zcCfg s.cfg j
    let n := measured z
    let zf := filtered z ac
    let w := BitVec.ofNat 16 n
    let rule (hit ok : Prop) (accepted : ZcInst) (p : ZcPulses) : Prop :=
      (hit → bandOk c n → ok → zcTicksTo s j ac accepted p) ∧
      (hit → ¬ (bandOk c n ∧ ok) → zcTicksTo s j ac (resynced z ac) resyncPulse) ∧
      (¬ hit → c.phaseCountMax.toNat < n → zcTicksTo s j ac (resynced z ac) resyncPulse) ∧
      (¬ hit → n ≤ c.phaseCountMax.toNat → zcTicksTo s j ac { zf with count := w } ZcPulses.zero)
    (z.zcState = .posWaitNeg1 → rule (crossesDown c z ac) True
      { zf with posCount := w, count := 0, zcState := .negWaitPos1 } ⟨true, false, false⟩) ∧
    (z.zcState = .negWaitPos1 → rule (crossesUp c z ac) True
      { zf with negCount := w, count := 0, zcState := .posWaitNeg2 } ⟨true, false, false⟩) ∧
    (z.zcState = .posWaitNeg2 →
      rule (crossesDown c z ac) (((n : Int) - z.posCount.toNat).natAbs ≤ c.zcMatchTol.toNat)
      { zf with posCount := w, count := 0, zcState := .negWaitPos2 } ⟨true, false, false⟩) ∧
    (z.zcState = .negWaitPos2 →
      rule (crossesUp c z ac) (((n : Int) - z.negCount.toNat).natAbs ≤ c.zcMatchTol.toNat)
      { zf with negCount := w, count := 0, zcState := .confirmNegPos, outputting := true,
                confirmLeft := c.zcConfirmTicks } ⟨true, true, false⟩)

/-- R325, R326: the four locked states. Inside the window and the band the awaited crossing is accepted
and the next half-cycle's CONFIRM state entered; late, out of band, a premature spike or an overrun
re-synchronises; otherwise the tick only counts, and a CONFIRM state dwells. That it dwells in the tick of a
tolerated premature crossing too is read from the pseudocode of R325 against the prose of R333(c)
(notes/assumptions/25.md). -/
def Obligations.LockedStates : Prop :=
  ∀ (s : State) (j : ZcId) (ac : U16), s.cfg.valid = true → zcReady (getZc s j) →
    ZcInv (zcCfg s.cfg j) (getZc s j) → locked (getZc s j).zcState = true →
    let z := getZc s j
    let c := zcCfg s.cfg j
    let n := measured z
    let pos := posHalf z.zcState
    let expected := if pos then z.posCount.toNat else z.negCount.toNat
    let hit : Prop := if pos then crossesDown c z ac else crossesUp c z ac
    let early : Prop := n + c.winStart.toNat < expected
    let spike : Prop := c.zcSpikeTol.toNat < ((ac.toNat : Int) - c.zcThreshold.toNat).natAbs
    let w := BitVec.ofNat 16 n
    let rested : ZcInst := { filtered z ac with
      count := w
      confirmLeft := if confirming z.zcState then z.confirmLeft - 1 else z.confirmLeft
      zcState := if confirming z.zcState ∧ z.confirmLeft = 1 then
          (if pos then .posDetectOc else .negDetectOc) else z.zcState }
    (hit → ¬ early → n ≤ expected + c.winEnd.toNat → bandOk c n →
      zcTicksTo s j ac
        (if pos then { filtered z ac with posCount := w, count := 0, zcState := .confirmPosNeg,
                                          confirmLeft := c.zcConfirmTicks }
         else { filtered z ac with negCount := w, count := 0, zcState := .confirmNegPos,
                                   confirmLeft := c.zcConfirmTicks })
        ⟨true, !pos, false⟩) ∧
    (hit → ¬ early → ¬ (n ≤ expected + c.winEnd.toNat ∧ bandOk c n) →
      zcTicksTo s j ac (resynced z ac) resyncPulse) ∧
    (hit → early → spike → zcTicksTo s j ac (resynced z ac) resyncPulse) ∧
    (hit → early → ¬ spike → zcTicksTo s j ac rested ZcPulses.zero) ∧
    (¬ hit → expected + c.winEnd.toNat < n → zcTicksTo s j ac (resynced z ac) resyncPulse) ∧
    (¬ hit → n ≤ expected + c.winEnd.toNat → zcTicksTo s j ac rested ZcPulses.zero)

/-- R319, R468: a stop request sets itself and changes nothing else until the instance's next tick, which
then runs as the tick of the instance reset to INIT, with no resync pulse. -/
def Obligations.StopWaitsForTheTick : Prop :=
  ∀ (s : State) (j : ZcId) (ac : U16), s.cfg.valid = true →
    ∃ u, exec (if j = .chg then .zcStopChg else .zcStopInv) s = .next u ∧
      u = setZc j { getZc s j with stopReq := true } s ∧
      (∀ z p, zcTicksTo u j ac z p ↔ zcTicksTo (setZc j { getZc s j with
          stopReq := false, zcState := .init, count := 0, posCount := 0, negCount := 0, outputting := false,
          confirmLeft := 0 } s) j ac z p) ∧
      (∀ z p, zcTicksTo u j ac z p → p.zcResync = false)

/-- The two instances share no state and an instance that is not ticked keeps all of its own (10 R50, 45
R310): in two states that agree on instance `j`, its parameters and its sample, a step that ticks it gives
the same instance, and any step in which neither `j` nor the host touches it leaves it as it was. -/
def Obligations.InstancesAreIndependent : Prop :=
  (∀ (s u s' u' : State) (j : ZcId) (ac : U16) (r1 r2 : List Event),
    step (withEvents s (.zcTick j ac :: r1)) = .next s' → step (withEvents u (.zcTick j ac :: r2)) = .next u' →
    getZc s j = getZc u j → zcCfg s.cfg j = zcCfg u.cfg j →
    getZc s' j = getZc u' j ∧ ∀ k, k ≠ j → getZc s' k = getZc s k) ∧
  (∀ (s t : State) (j : ZcId) (h : Handler) (fb : S16) (vbus vbatt : U16) (rms : S16) (ac : U16)
      (rest : List Event),
    step (withEvents s (.pwmTick h fb vbus vbatt rms ac :: rest)) = .next t →
    h ≠ (if j = .chg then .charger else .inverter) → getZc t j = getZc s j)

/-! ### The machine as a whole -/

/-- R72, R68: no step changes the parameter record, the table in it included. -/
def Obligations.ParametersNeverChange : Prop :=
  ∀ s t : State, step s = .next t → t.cfg = s.cfg

/-- R411, R310: the composition of a `pwm_tick`. Under CHARGER only the safe window is loaded and instance
CHG ticked with the event's sample, under DEFAULT and BOOTCHARGE nothing happens: the engine and its latch are frozen and the drive
outputs stay. That those handlers leave the outputs alone is the spec's choice for logic it does not
describe (91 N12, notes/assumptions/16.md). -/
def Obligations.OtherHandlersFreezeTheEngine : Prop :=
  ∀ (s : State) (h : Handler) (fb : S16) (vbus vbatt : U16) (rms : S16) (ac : U16) (rest : List Event),
    s.cfg.valid = true → h ≠ .inverter →
    ∃ t, step (withEvents s (.pwmTick h fb vbus vbatt rms ac :: rest)) = .next t ∧
      t.seq = s.seq ∧ t.cmdLatch = s.cmdLatch ∧ t.ramp = s.ramp ∧ t.pid = s.pid ∧ t.flatTop = s.flatTop ∧
      t.fbDly = s.fbDly ∧ t.rebal = s.rebal ∧ t.satDet = s.satDet ∧ t.fbZeroCount = s.fbZeroCount ∧
      t.drive = s.drive ∧ t.flags = s.flags ∧ t.ovl = s.ovl ∧ t.zcInv = s.zcInv ∧
      t.safe = (if h = .charger then { s.safe with safeCyclesLeft := s.cfg.safeICycles } else s.safe) ∧
      (t.zcChg, t.pulses.chg) =
        (if h = .charger then zcTick s.cfg.zcChg ac s.zcChg else (s.zcChg, ZcPulses.zero)) ∧
      t.pulses.halfCycle = false ∧ t.pulses.fullCycle = false ∧ t.pulses.inv = ZcPulses.zero

/-- R21, R86: who writes what. A step by an event other than those the rule lists for a group leaves the
group alone. -/
def Obligations.SingleWriter : Prop :=
  ∀ (s t : State) (e : Event) (rest : List Event), step (withEvents s (e :: rest)) = .next t → e ≠ .hwReset →
    ((∀ fb vb vt rm, e ≠ .engTick fb vb vt rm) → (∀ h fb vb vt rm ac, e ≠ .pwmTick h fb vb vt rm ac) →
      t.seq = s.seq ∧ t.ramp = s.ramp ∧ t.pid = s.pid ∧ t.flatTop = s.flatTop ∧ t.fbDly = s.fbDly ∧
      t.rebal = s.rebal ∧ t.satDet = s.satDet ∧ t.safe = s.safe ∧ t.fbZeroCount = s.fbZeroCount ∧
      ((∀ i a v, e ≠ .sampleTick i a v) → t.drive = s.drive) ∧
      ((∀ addr n v, e ≠ .busWrite addr n v) → t.flags = s.flags ∧ t.cmdLatch = s.cmdLatch ∧
        ((∀ j ac, e ≠ .zcTick j ac) → t.zcChg = s.zcChg ∧ t.zcInv = s.zcInv) ∧
        ((∀ i a v, e ≠ .sampleTick i a v) → (∀ r, e ≠ .zcTask r) → t.ovl = s.ovl)))

/-- R33, R45: a feedback fault flag is cleared only by writing 1 to its STATUS bit or by `hw_reset`. -/
def Obligations.FaultFlagsAreSticky : Prop :=
  ∀ (s t : State) (e : Event) (rest : List Event), step (withEvents s (e :: rest)) = .next t →
    (s.flags.feedbackReversed = true → t.flags.feedbackReversed = false → e = .hwReset ∨
      ∃ v : U32, e = .busWrite (s.cfg.regBase + 0x04) 4 v ∧ v.getLsbD 3 = true) ∧
    (s.flags.outputShorted = true → t.flags.outputShorted = false → e = .hwReset ∨
      ∃ v : U32, e = .busWrite (s.cfg.regBase + 0x04) 4 v ∧ v.getLsbD 4 = true)

/-- The transition table of `eng_state` (the spec's derived table 40 R170): a tick that changes the state
takes one of its rows. The half-cycles done are counted as notes/assumptions/12.md says. -/
def Obligations.EngineTransitions : Prop :=
  ∀ (s t : State) (p : EngIn) (rest : List Event), EngInv s →
    step (withEvents s (p.event :: rest)) = .next t → t.seq.engState ≠ s.seq.engState →
    let b : State := { s with ports.fbIn := p.fb }
    let ends : Prop := s.seq.idx.toNat + 1 = s.cfg.n
    let allowed : Prop := s.flags.feedbackReversed = false ∧ s.flags.outputShorted = false ∧ s.ovl.state ≠ .shutdown
    (t.seq.engState = .idle ∧ (s.cmdLatch = 0x01 ∨ s.cmdLatch = 0x06)) ∨
    (t.seq.engState = .idle ∧ s.ovl.state = .shutdown) ∨
    (s.seq.engState = .idle ∧ allowed ∧
      ((t.seq.engState = .softStart ∧ s.cmdLatch = 0x02) ∨ (t.seq.engState = .normal ∧ s.cmdLatch = 0x03) ∨
        (t.seq.engState = .ping ∧ s.cmdLatch = 0x04))) ∨
    (s.seq.engState = .normal ∧ t.seq.engState = .softStop ∧ s.cmdLatch = 0x05 ∧ s.seq.phase = .positive ∧
      s.seq.idx = 0) ∨
    (s.seq.engState = .softStart ∧ t.seq.engState = .softStop ∧ reversedNow b ∧
      t.flags.feedbackReversed = true) ∨
    (s.seq.engState = .normal ∧ t.seq.engState = .softStop ∧ shortedNow b ∧ t.flags.outputShorted = true) ∨
    (s.seq.engState = .softStart ∧ t.seq.engState = .normal ∧ ends ∧
      s.cfg.softStartCycles.toNat ≤ halvesDone s.ramp + 1) ∨
    (s.seq.engState = .ping ∧ t.seq.engState = .idle ∧ ends ∧
      2 * s.cfg.pingRampHc.toNat ≤ halvesDone s.ramp + 1) ∨
    (s.seq.engState ≠ .idle ∧ t.seq.engState = .idle ∧ ends ∧ s.ramp.multiplier.toNat ≤ s.ramp.rampInc.toNat ∧
      (s.seq.engState = .softStop ∨ reversedNow b ∨ shortedNow b))

/-- The rebalancing offset is an output that no rule of the block reads (10 R65, 44 R272): two states that
differ in it alone still differ in it alone after the same step, whatever the step. -/
def Obligations.OffsetIsReadByNothing : Prop :=
  ∀ (s t u : State) (z : S16) (e : Event) (rest : List Event), (∀ a n, e ≠ .busRead a n) →
    step (withEvents s (e :: rest)) = .next t →
    step (withEvents { s with rebal.zcOffset := z } (e :: rest)) = .next u →
    u = { t with rebal.zcOffset := u.rebal.zcOffset }

/-! ### Invariants -/

/-- Every step keeps the engine's invariant: the index stays inside the table, IDLE stays clear and
off, at most one pair is driven and never high, every duty stays in range, the sums never saturate and a
latched feedback fault keeps the engine stopped or ramping down. In SOFT_STOP the PID state is zero (43 R241)
but for the rest of the half-cycle of a failed near-zero test, where the model follows 44 R267(e)
(notes/assumptions/18.md). The conjunct on the half-cycles counted
beside `hc_count` is the model's choice (notes/assumptions/12.md). -/
def Obligations.EngineStaysSafe : Prop :=
  ∀ s t : State, EngInv s → step s = .next t → EngInv t

/-- Every step keeps the multiplier on its ramp: `(h + 1)·ramp_inc` in half-cycle h of the soft start,
up and down again over the 2·PING_RAMP_HC half-cycles of a ping (40 R160, R163). Half-cycles beyond 65535
are counted beside `hc_count` (the model's choice, notes/assumptions/12.md). -/
def Obligations.MultiplierStaysOnItsRamp : Prop :=
  ∀ s t : State, EngInv s → RampInv s → step s = .next t → RampInv t

/-- Every step keeps the overload invariant (46 R363, R370 to R377). -/
def Obligations.OverloadStaysBounded : Prop :=
  ∀ s t : State, OvlInv s → step s = .next t → OvlInv t

/-- R333(a), (b): every step keeps, in both instances, the saved lengths in the band and `outputting` in
step with the locked states. -/
def Obligations.SavedLengthsStayInTheBand : Prop :=
  ∀ s t : State, (∀ j, ZcInv (zcCfg s.cfg j) (getZc s j)) → step s = .next t →
    ∀ j, ZcInv (zcCfg t.cfg j) (getZc t j)

/-- No state that meets the invariant stops the machine: the next step answers a next state, which meets
it again (20 R71, 60 R414) and has the first of the events to come taken off (the model's own queue,
notes/assumptions/1.md). -/
def Obligations.EveryStepCompletes : Prop :=
  ∀ s : State, Inv s → ∃ t, step s = .next t ∧ Inv t ∧ t.events = s.events.tail

/-! ### Runs -/

/-- The properties the spec derives in 40 R171. (a) From any state, writing RESET or STOP and one
`eng_tick` gives the cleared engine, and the same pair again changes nothing.
(b) From IDLE with a start allowed, SOFT_START and N · SOFT_START_CYCLES ticks in which no self-test fails
end in NORMAL, at the battery-scaled end multiplier of the last tick. -/
def Obligations.ResetIsIdempotentAndColdStartReachesNormal : Prop :=
  (∀ (s : State) (v : U32) (p : EngIn), s.cfg.valid = true → v = 1 ∨ v = 6 →
    let pair : List Event := [.busWrite s.cfg.regBase 4 v, p.event]
    ∃ t, runs s pair = .next t ∧ t.seq = ⟨.idle, .positive, 0⟩ ∧ t.pid.integralSum = 0 ∧
      t.pid.prevError = 0 ∧ runs t pair = .next t) ∧
  (∀ (s : State) (ps : List EngIn) (last : EngIn), s.cfg.valid = true → EngInv s →
    s.seq.engState = .idle → s.cmdLatch = 0x02 →
    s.flags.feedbackReversed = false → s.flags.outputShorted = false → s.ovl.state ≠ .shutdown →
    ps.length + 1 = s.cfg.n * s.cfg.softStartCycles.toNat →
    ∃ t, runs s ((ps ++ [last]).map EngIn.event) = .next t ∧
      (t.flags.feedbackReversed = false →
        t.seq.engState = .normal ∧ t.seq.idx = 0 ∧ t.ramp.multiplier.toNat =
          scaled s.cfg.vbattNominal.toNat s.cfg.softStartMaxDuty.toNat last.vbatt.toNat))

/-- R165, R463: the ramp-down ends. From SOFT_STOP with an empty latch and no shutdown, the engine is in
SOFT_STOP until the half-cycle boundary at which the multiplier has been counted down, which is the one
number `ceil(multiplier / ramp_inc)` from now (and the first one if the multiplier is 0 already), and in
IDLE from then on, whatever the inputs. -/
def Obligations.RampDownEnds : Prop :=
  ∀ (s : State) (ps : List EngIn), s.cfg.valid = true → EngInv s → s.seq.engState = .softStop →
    s.cmdLatch = 0 → s.ovl.state ≠ .shutdown →
    let halves := max 1 ((s.ramp.multiplier.toNat + s.ramp.rampInc.toNat - 1) / s.ramp.rampInc.toNat)
    let ticks := halves * s.cfg.n - s.seq.idx.toNat
    ∃ t, runs s (ps.map EngIn.event) = .next t ∧
      (ps.length < ticks → t.seq.engState = .softStop) ∧ (ticks ≤ ps.length → t.seq.engState = .idle)

/-- R163, R463: a ping lasts 2·PING_RAMP_HC half-cycles and ends by itself, whatever the inputs; so does one
whose half-cycles `hc_count` cannot hold (notes/assumptions/12.md). -/
def Obligations.PingEndsByItself : Prop :=
  ∀ (s : State) (ps : List EngIn), s.cfg.valid = true → EngInv s → s.seq.engState = .idle →
    s.cmdLatch = 0x04 → s.flags.feedbackReversed = false → s.flags.outputShorted = false →
    s.ovl.state ≠ .shutdown → ps ≠ [] →
    ∃ t, runs s (ps.map EngIn.event) = .next t ∧
      (ps.length < 2 * s.cfg.pingRampHc.toNat * s.cfg.n → t.seq.engState = .ping) ∧
      (2 * s.cfg.pingRampHc.toNat * s.cfg.n ≤ ps.length → t.seq.engState = .idle)
end

