-- ==== Sys2Proof/Laws/Operands.lean ====
section
/-! SUPPORT. One lemma per operation of Machine/Operands.lean, saying on mathematical integers what it
stores. -/

namespace Sys2Proof.Laws

open Sys2Proof.Machine

theorem sat_of_mem {v lo hi : Int} (h1 : lo ≤ v) (h2 : v ≤ hi) : sat v lo hi = v := by
  unfold sat; split <;> [omega; (split <;> omega)]

theorem sat_mem {v lo hi : Int} (h : lo ≤ hi) : lo ≤ sat v lo hi ∧ sat v lo hi ≤ hi := by
  unfold sat; split <;> [omega; (split <;> omega)]

theorem satS32_toInt (v : Int) : (satS32 v).toInt = sat v (-2147483648) 2147483647 := by
  have h := sat_mem (v := v) (lo := -2147483648) (hi := 2147483647) (by omega)
  simp only [satS32, BitVec.toInt_ofInt]
  exact Int.bmod_eq_of_le (by omega) (by omega)

theorem satS32_of_mem {v : Int} (h1 : -2147483648 ≤ v) (h2 : v ≤ 2147483647) : (satS32 v).toInt = v := by
  rw [satS32_toInt, sat_of_mem h1 h2]

theorem satS16_toInt (v : Int) : (satS16 v).toInt = sat v (-32768) 32767 := by
  have h := sat_mem (v := v) (lo := -32768) (hi := 32767) (by omega)
  simp only [satS16, BitVec.toInt_ofInt]
  exact Int.bmod_eq_of_le (by omega) (by omega)

theorem satU16_toNat (v : Int) : (satU16 v).toNat = (sat v 0 65535).toNat := by
  have h := sat_mem (v := v) (lo := 0) (hi := 65535) (by omega)
  simp only [satU16, BitVec.toNat_ofInt]
  rw [Int.emod_eq_of_lt (by omega) (by omega)]

theorem satU16_of_mem {v : Int} (h1 : 0 ≤ v) (h2 : v ≤ 65535) : (satU16 v).toNat = v.toNat := by
  rw [satU16_toNat, sat_of_mem h1 h2]

theorem satU32_toNat (v : Int) : (satU32 v).toNat = (sat v 0 4294967295).toNat := by
  have h := sat_mem (v := v) (lo := 0) (hi := 4294967295) (by omega)
  simp only [satU32, BitVec.toNat_ofInt]
  rw [Int.emod_eq_of_lt (by omega) (by omega)]

theorem satU16_natCast (n : Nat) : (satU16 (n : Int)).toNat = min n 65535 := by
  rw [satU16_toNat]; unfold sat; split <;> [omega; (split <;> omega)]

theorem incU16_toNat (x : U16) : (incU16 x).toNat = min (x.toNat + 1) 65535 := by
  rw [incU16, satU16_toNat]; unfold sat; split <;> [omega; (split <;> omega)]

theorem incU16_of_lt {x : U16} (h : x.toNat < 65535) : (incU16 x).toNat = x.toNat + 1 := by
  rw [incU16_toNat]; omega

theorem decU16_toNat (x : U16) : (decU16 x).toNat = x.toNat - 1 := by
  have := x.isLt
  rw [decU16, satU16_toNat]; unfold sat; split <;> [omega; (split <;> omega)]

theorem accU32_toNat (a : U32) (x : U16) : (accU32 a x).toNat = min (a.toNat + x.toNat) 4294967295 := by
  rw [accU32, satU32_toNat]; unfold sat; split <;> [omega; (split <;> omega)]

theorem accU32_of_le {a : U32} {x : U16} (h : a.toNat + x.toNat ≤ 4294967295) :
    (accU32 a x).toNat = a.toNat + x.toNat := by
  rw [accU32_toNat]; omega

theorem atLeastOne_toNat (x : U16) : (atLeastOne x).toNat = max 1 x.toNat := by
  unfold atLeastOne
  split
  next h => subst h; rfl
  next h =>
    have : x.toNat ≠ 0 := fun e => h (BitVec.eq_of_toNat_eq (by simpa using e))
    omega

/-- The quotient truncated toward zero, by the sign of the dividend (41_q16_arithmetic.md R181). -/
theorem tdiv_natCast (a b : Nat) : tdiv (a : Int) (b : Int) = ((a / b : Nat) : Int) := rfl

theorem tdiv_neg (a b : Int) : tdiv (-a) b = -tdiv a b := Int.neg_tdiv ..

theorem tdiv_natAbs_le (a b : Int) : (tdiv a b).natAbs ≤ a.natAbs := by
  unfold tdiv
  rw [Int.natAbs_tdiv]
  exact Nat.div_le_self _ _

theorem q16MulIntVal_mem (g x : Int) :
    -2147483648 ≤ q16MulIntVal g x ∧ q16MulIntVal g x ≤ 2147483647 :=
  sat_mem (by omega)

theorem q16MulInt_toInt (g x : S32) :
    (q16MulInt g x).toInt = sat (tdiv (g.toInt * x.toInt) 65536) (-2147483648) 2147483647 :=
  satS32_toInt _

theorem toNat_eq_zero_iff {w : Nat} {x : BitVec w} : x.toNat = 0 ↔ x = 0 :=
  ⟨fun h => BitVec.eq_of_toNat_eq (by simpa using h), fun h => by simp [h]⟩

end Sys2Proof.Laws
end

