-- ==== Sys2Proof/Laws/State.lean ====
section
/-! SUPPORT. One lemma per group of the state and named update that leaves the group alone, so that no
later proof unfolds a record update; the groups an update writes are in Laws/Ops.lean. -/

namespace Sys2Proof.Laws

open Sys2Proof.Machine

@[simp] theorem driveOff_cfg (s : State) : (driveOff s).cfg = s.cfg := rfl
@[simp] theorem driveOff_cmdLatch (s : State) : (driveOff s).cmdLatch = s.cmdLatch := rfl
@[simp] theorem driveOff_seq (s : State) : (driveOff s).seq = s.seq := rfl
@[simp] theorem driveOff_ramp (s : State) : (driveOff s).ramp = s.ramp := rfl
@[simp] theorem driveOff_pid (s : State) : (driveOff s).pid = s.pid := rfl
@[simp] theorem driveOff_flatTop (s : State) : (driveOff s).flatTop = s.flatTop := rfl
@[simp] theorem driveOff_fbDly (s : State) : (driveOff s).fbDly = s.fbDly := rfl
@[simp] theorem driveOff_rebal (s : State) : (driveOff s).rebal = s.rebal := rfl
@[simp] theorem driveOff_satDet (s : State) : (driveOff s).satDet = s.satDet := rfl
@[simp] theorem driveOff_safe (s : State) : (driveOff s).safe = s.safe := rfl
@[simp] theorem driveOff_fbZeroCount (s : State) : (driveOff s).fbZeroCount = s.fbZeroCount := rfl
@[simp] theorem driveOff_flags (s : State) : (driveOff s).flags = s.flags := rfl
@[simp] theorem driveOff_ovl (s : State) : (driveOff s).ovl = s.ovl := rfl
@[simp] theorem driveOff_zcChg (s : State) : (driveOff s).zcChg = s.zcChg := rfl
@[simp] theorem driveOff_zcInv (s : State) : (driveOff s).zcInv = s.zcInv := rfl
@[simp] theorem driveOff_pulses (s : State) : (driveOff s).pulses = s.pulses := rfl
@[simp] theorem driveOff_ports (s : State) : (driveOff s).ports = s.ports := rfl
@[simp] theorem driveOff_busRdata (s : State) : (driveOff s).busRdata = s.busRdata := rfl
@[simp] theorem driveOff_events (s : State) : (driveOff s).events = s.events := rfl

@[simp] theorem pidPhaseClear_cfg (s : State) : (pidPhaseClear s).cfg = s.cfg := rfl
@[simp] theorem pidPhaseClear_cmdLatch (s : State) : (pidPhaseClear s).cmdLatch = s.cmdLatch := rfl
@[simp] theorem pidPhaseClear_safe (s : State) : (pidPhaseClear s).safe = s.safe := rfl
@[simp] theorem pidPhaseClear_flags (s : State) : (pidPhaseClear s).flags = s.flags := rfl
@[simp] theorem pidPhaseClear_ovl (s : State) : (pidPhaseClear s).ovl = s.ovl := rfl
@[simp] theorem pidPhaseClear_zcChg (s : State) : (pidPhaseClear s).zcChg = s.zcChg := rfl
@[simp] theorem pidPhaseClear_zcInv (s : State) : (pidPhaseClear s).zcInv = s.zcInv := rfl
@[simp] theorem pidPhaseClear_pulses (s : State) : (pidPhaseClear s).pulses = s.pulses := rfl
@[simp] theorem pidPhaseClear_ports (s : State) : (pidPhaseClear s).ports = s.ports := rfl
@[simp] theorem pidPhaseClear_busRdata (s : State) : (pidPhaseClear s).busRdata = s.busRdata := rfl
@[simp] theorem pidPhaseClear_events (s : State) : (pidPhaseClear s).events = s.events := rfl

@[simp] theorem idleEntry_cfg (s : State) : (idleEntry s).cfg = s.cfg := rfl
@[simp] theorem idleEntry_cmdLatch (s : State) : (idleEntry s).cmdLatch = s.cmdLatch := rfl
@[simp] theorem idleEntry_safe (s : State) : (idleEntry s).safe = s.safe := rfl
@[simp] theorem idleEntry_flags (s : State) : (idleEntry s).flags = s.flags := rfl
@[simp] theorem idleEntry_ovl (s : State) : (idleEntry s).ovl = s.ovl := rfl
@[simp] theorem idleEntry_zcChg (s : State) : (idleEntry s).zcChg = s.zcChg := rfl
@[simp] theorem idleEntry_zcInv (s : State) : (idleEntry s).zcInv = s.zcInv := rfl
@[simp] theorem idleEntry_pulses (s : State) : (idleEntry s).pulses = s.pulses := rfl
@[simp] theorem idleEntry_ports (s : State) : (idleEntry s).ports = s.ports := rfl
@[simp] theorem idleEntry_busRdata (s : State) : (idleEntry s).busRdata = s.busRdata := rfl
@[simp] theorem idleEntry_events (s : State) : (idleEntry s).events = s.events := rfl

@[simp] theorem engineClear_cfg (s : State) : (engineClear s).cfg = s.cfg := rfl
@[simp] theorem engineClear_cmdLatch (s : State) : (engineClear s).cmdLatch = s.cmdLatch := rfl
@[simp] theorem engineClear_flags (s : State) : (engineClear s).flags = s.flags := rfl
@[simp] theorem engineClear_ovl (s : State) : (engineClear s).ovl = s.ovl := rfl
@[simp] theorem engineClear_zcChg (s : State) : (engineClear s).zcChg = s.zcChg := rfl
@[simp] theorem engineClear_zcInv (s : State) : (engineClear s).zcInv = s.zcInv := rfl
@[simp] theorem engineClear_pulses (s : State) : (engineClear s).pulses = s.pulses := rfl
@[simp] theorem engineClear_ports (s : State) : (engineClear s).ports = s.ports := rfl
@[simp] theorem engineClear_busRdata (s : State) : (engineClear s).busRdata = s.busRdata := rfl
@[simp] theorem engineClear_events (s : State) : (engineClear s).events = s.events := rfl

@[simp] theorem selectGain_cfg (s : State) : (selectGain s).cfg = s.cfg := rfl
@[simp] theorem selectGain_cmdLatch (s : State) : (selectGain s).cmdLatch = s.cmdLatch := rfl
@[simp] theorem selectGain_seq (s : State) : (selectGain s).seq = s.seq := rfl
@[simp] theorem selectGain_ramp (s : State) : (selectGain s).ramp = s.ramp := rfl
@[simp] theorem selectGain_pid (s : State) : (selectGain s).pid = s.pid := rfl
@[simp] theorem selectGain_flatTop (s : State) : (selectGain s).flatTop = s.flatTop := rfl
@[simp] theorem selectGain_fbDly (s : State) : (selectGain s).fbDly = s.fbDly := rfl
@[simp] theorem selectGain_rebal (s : State) : (selectGain s).rebal = s.rebal := rfl
@[simp] theorem selectGain_satDet (s : State) : (selectGain s).satDet = s.satDet := rfl
@[simp] theorem selectGain_fbZeroCount (s : State) : (selectGain s).fbZeroCount = s.fbZeroCount := rfl
@[simp] theorem selectGain_drive (s : State) : (selectGain s).drive = s.drive := rfl
@[simp] theorem selectGain_flags (s : State) : (selectGain s).flags = s.flags := rfl
@[simp] theorem selectGain_ovl (s : State) : (selectGain s).ovl = s.ovl := rfl
@[simp] theorem selectGain_zcChg (s : State) : (selectGain s).zcChg = s.zcChg := rfl
@[simp] theorem selectGain_zcInv (s : State) : (selectGain s).zcInv = s.zcInv := rfl
@[simp] theorem selectGain_pulses (s : State) : (selectGain s).pulses = s.pulses := rfl
@[simp] theorem selectGain_ports (s : State) : (selectGain s).ports = s.ports := rfl
@[simp] theorem selectGain_busRdata (s : State) : (selectGain s).busRdata = s.busRdata := rfl
@[simp] theorem selectGain_events (s : State) : (selectGain s).events = s.events := rfl

@[simp] theorem clearFbReversed_cfg (s : State) : (clearFbReversed s).cfg = s.cfg := rfl
@[simp] theorem clearFbReversed_cmdLatch (s : State) : (clearFbReversed s).cmdLatch = s.cmdLatch := rfl
@[simp] theorem clearFbReversed_seq (s : State) : (clearFbReversed s).seq = s.seq := rfl
@[simp] theorem clearFbReversed_ramp (s : State) : (clearFbReversed s).ramp = s.ramp := rfl
@[simp] theorem clearFbReversed_pid (s : State) : (clearFbReversed s).pid = s.pid := rfl
@[simp] theorem clearFbReversed_flatTop (s : State) : (clearFbReversed s).flatTop = s.flatTop := rfl
@[simp] theorem clearFbReversed_fbDly (s : State) : (clearFbReversed s).fbDly = s.fbDly := rfl
@[simp] theorem clearFbReversed_rebal (s : State) : (clearFbReversed s).rebal = s.rebal := rfl
@[simp] theorem clearFbReversed_satDet (s : State) : (clearFbReversed s).satDet = s.satDet := rfl
@[simp] theorem clearFbReversed_safe (s : State) : (clearFbReversed s).safe = s.safe := rfl
@[simp] theorem clearFbReversed_fbZeroCount (s : State) : (clearFbReversed s).fbZeroCount = s.fbZeroCount := rfl
@[simp] theorem clearFbReversed_drive (s : State) : (clearFbReversed s).drive = s.drive := rfl
@[simp] theorem clearFbReversed_ovl (s : State) : (clearFbReversed s).ovl = s.ovl := rfl
@[simp] theorem clearFbReversed_zcChg (s : State) : (clearFbReversed s).zcChg = s.zcChg := rfl
@[simp] theorem clearFbReversed_zcInv (s : State) : (clearFbReversed s).zcInv = s.zcInv := rfl
@[simp] theorem clearFbReversed_pulses (s : State) : (clearFbReversed s).pulses = s.pulses := rfl
@[simp] theorem clearFbReversed_ports (s : State) : (clearFbReversed s).ports = s.ports := rfl
@[simp] theorem clearFbReversed_busRdata (s : State) : (clearFbReversed s).busRdata = s.busRdata := rfl
@[simp] theorem clearFbReversed_events (s : State) : (clearFbReversed s).events = s.events := rfl

@[simp] theorem clearOutShorted_cfg (s : State) : (clearOutShorted s).cfg = s.cfg := rfl
@[simp] theorem clearOutShorted_cmdLatch (s : State) : (clearOutShorted s).cmdLatch = s.cmdLatch := rfl
@[simp] theorem clearOutShorted_seq (s : State) : (clearOutShorted s).seq = s.seq := rfl
@[simp] theorem clearOutShorted_ramp (s : State) : (clearOutShorted s).ramp = s.ramp := rfl
@[simp] theorem clearOutShorted_pid (s : State) : (clearOutShorted s).pid = s.pid := rfl
@[simp] theorem clearOutShorted_flatTop (s : State) : (clearOutShorted s).flatTop = s.flatTop := rfl
@[simp] theorem clearOutShorted_fbDly (s : State) : (clearOutShorted s).fbDly = s.fbDly := rfl
@[simp] theorem clearOutShorted_rebal (s : State) : (clearOutShorted s).rebal = s.rebal := rfl
@[simp] theorem clearOutShorted_satDet (s : State) : (clearOutShorted s).satDet = s.satDet := rfl
@[simp] theorem clearOutShorted_safe (s : State) : (clearOutShorted s).safe = s.safe := rfl
@[simp] theorem clearOutShorted_fbZeroCount (s : State) : (clearOutShorted s).fbZeroCount = s.fbZeroCount := rfl
@[simp] theorem clearOutShorted_drive (s : State) : (clearOutShorted s).drive = s.drive := rfl
@[simp] theorem clearOutShorted_ovl (s : State) : (clearOutShorted s).ovl = s.ovl := rfl
@[simp] theorem clearOutShorted_zcChg (s : State) : (clearOutShorted s).zcChg = s.zcChg := rfl
@[simp] theorem clearOutShorted_zcInv (s : State) : (clearOutShorted s).zcInv = s.zcInv := rfl
@[simp] theorem clearOutShorted_pulses (s : State) : (clearOutShorted s).pulses = s.pulses := rfl
@[simp] theorem clearOutShorted_ports (s : State) : (clearOutShorted s).ports = s.ports := rfl
@[simp] theorem clearOutShorted_busRdata (s : State) : (clearOutShorted s).busRdata = s.busRdata := rfl
@[simp] theorem clearOutShorted_events (s : State) : (clearOutShorted s).events = s.events := rfl

@[simp] theorem ovlResetOp_cfg (s : State) : (ovlResetOp s).cfg = s.cfg := rfl
@[simp] theorem ovlResetOp_cmdLatch (s : State) : (ovlResetOp s).cmdLatch = s.cmdLatch := rfl
@[simp] theorem ovlResetOp_seq (s : State) : (ovlResetOp s).seq = s.seq := rfl
@[simp] theorem ovlResetOp_ramp (s : State) : (ovlResetOp s).ramp = s.ramp := rfl
@[simp] theorem ovlResetOp_pid (s : State) : (ovlResetOp s).pid = s.pid := rfl
@[simp] theorem ovlResetOp_flatTop (s : State) : (ovlResetOp s).flatTop = s.flatTop := rfl
@[simp] theorem ovlResetOp_fbDly (s : State) : (ovlResetOp s).fbDly = s.fbDly := rfl
@[simp] theorem ovlResetOp_rebal (s : State) : (ovlResetOp s).rebal = s.rebal := rfl
@[simp] theorem ovlResetOp_satDet (s : State) : (ovlResetOp s).satDet = s.satDet := rfl
@[simp] theorem ovlResetOp_safe (s : State) : (ovlResetOp s).safe = s.safe := rfl
@[simp] theorem ovlResetOp_fbZeroCount (s : State) : (ovlResetOp s).fbZeroCount = s.fbZeroCount := rfl
@[simp] theorem ovlResetOp_drive (s : State) : (ovlResetOp s).drive = s.drive := rfl
@[simp] theorem ovlResetOp_flags (s : State) : (ovlResetOp s).flags = s.flags := rfl
@[simp] theorem ovlResetOp_zcChg (s : State) : (ovlResetOp s).zcChg = s.zcChg := rfl
@[simp] theorem ovlResetOp_zcInv (s : State) : (ovlResetOp s).zcInv = s.zcInv := rfl
@[simp] theorem ovlResetOp_pulses (s : State) : (ovlResetOp s).pulses = s.pulses := rfl
@[simp] theorem ovlResetOp_ports (s : State) : (ovlResetOp s).ports = s.ports := rfl
@[simp] theorem ovlResetOp_busRdata (s : State) : (ovlResetOp s).busRdata = s.busRdata := rfl
@[simp] theorem ovlResetOp_events (s : State) : (ovlResetOp s).events = s.events := rfl

@[simp] theorem cmdWrite_cfg (v : U32) (s : State) : (cmdWrite v s).cfg = s.cfg := rfl
@[simp] theorem cmdWrite_seq (v : U32) (s : State) : (cmdWrite v s).seq = s.seq := rfl
@[simp] theorem cmdWrite_ramp (v : U32) (s : State) : (cmdWrite v s).ramp = s.ramp := rfl
@[simp] theorem cmdWrite_pid (v : U32) (s : State) : (cmdWrite v s).pid = s.pid := rfl
@[simp] theorem cmdWrite_flatTop (v : U32) (s : State) : (cmdWrite v s).flatTop = s.flatTop := rfl
@[simp] theorem cmdWrite_fbDly (v : U32) (s : State) : (cmdWrite v s).fbDly = s.fbDly := rfl
@[simp] theorem cmdWrite_rebal (v : U32) (s : State) : (cmdWrite v s).rebal = s.rebal := rfl
@[simp] theorem cmdWrite_satDet (v : U32) (s : State) : (cmdWrite v s).satDet = s.satDet := rfl
@[simp] theorem cmdWrite_safe (v : U32) (s : State) : (cmdWrite v s).safe = s.safe := rfl
@[simp] theorem cmdWrite_fbZeroCount (v : U32) (s : State) : (cmdWrite v s).fbZeroCount = s.fbZeroCount := rfl
@[simp] theorem cmdWrite_drive (v : U32) (s : State) : (cmdWrite v s).drive = s.drive := rfl
@[simp] theorem cmdWrite_flags (v : U32) (s : State) : (cmdWrite v s).flags = s.flags := rfl
@[simp] theorem cmdWrite_ovl (v : U32) (s : State) : (cmdWrite v s).ovl = s.ovl := rfl
@[simp] theorem cmdWrite_zcChg (v : U32) (s : State) : (cmdWrite v s).zcChg = s.zcChg := rfl
@[simp] theorem cmdWrite_zcInv (v : U32) (s : State) : (cmdWrite v s).zcInv = s.zcInv := rfl
@[simp] theorem cmdWrite_pulses (v : U32) (s : State) : (cmdWrite v s).pulses = s.pulses := rfl
@[simp] theorem cmdWrite_ports (v : U32) (s : State) : (cmdWrite v s).ports = s.ports := rfl
@[simp] theorem cmdWrite_busRdata (v : U32) (s : State) : (cmdWrite v s).busRdata = s.busRdata := rfl
@[simp] theorem cmdWrite_events (v : U32) (s : State) : (cmdWrite v s).events = s.events := rfl

@[simp] theorem emptyLatch_cfg (s : State) : (emptyLatch s).cfg = s.cfg := rfl
@[simp] theorem emptyLatch_seq (s : State) : (emptyLatch s).seq = s.seq := rfl
@[simp] theorem emptyLatch_ramp (s : State) : (emptyLatch s).ramp = s.ramp := rfl
@[simp] theorem emptyLatch_pid (s : State) : (emptyLatch s).pid = s.pid := rfl
@[simp] theorem emptyLatch_flatTop (s : State) : (emptyLatch s).flatTop = s.flatTop := rfl
@[simp] theorem emptyLatch_fbDly (s : State) : (emptyLatch s).fbDly = s.fbDly := rfl
@[simp] theorem emptyLatch_rebal (s : State) : (emptyLatch s).rebal = s.rebal := rfl
@[simp] theorem emptyLatch_satDet (s : State) : (emptyLatch s).satDet = s.satDet := rfl
@[simp] theorem emptyLatch_safe (s : State) : (emptyLatch s).safe = s.safe := rfl
@[simp] theorem emptyLatch_fbZeroCount (s : State) : (emptyLatch s).fbZeroCount = s.fbZeroCount := rfl
@[simp] theorem emptyLatch_drive (s : State) : (emptyLatch s).drive = s.drive := rfl
@[simp] theorem emptyLatch_flags (s : State) : (emptyLatch s).flags = s.flags := rfl
@[simp] theorem emptyLatch_ovl (s : State) : (emptyLatch s).ovl = s.ovl := rfl
@[simp] theorem emptyLatch_zcChg (s : State) : (emptyLatch s).zcChg = s.zcChg := rfl
@[simp] theorem emptyLatch_zcInv (s : State) : (emptyLatch s).zcInv = s.zcInv := rfl
@[simp] theorem emptyLatch_pulses (s : State) : (emptyLatch s).pulses = s.pulses := rfl
@[simp] theorem emptyLatch_ports (s : State) : (emptyLatch s).ports = s.ports := rfl
@[simp] theorem emptyLatch_busRdata (s : State) : (emptyLatch s).busRdata = s.busRdata := rfl
@[simp] theorem emptyLatch_events (s : State) : (emptyLatch s).events = s.events := rfl

@[simp] theorem hwResetOp_cfg (s : State) : (hwResetOp s).cfg = s.cfg := rfl
@[simp] theorem hwResetOp_ports (s : State) : (hwResetOp s).ports = s.ports := rfl
@[simp] theorem hwResetOp_events (s : State) : (hwResetOp s).events = s.events := rfl

@[simp] theorem beginTick_cfg (s : State) : (beginTick s).cfg = s.cfg := rfl
@[simp] theorem beginTick_cmdLatch (s : State) : (beginTick s).cmdLatch = s.cmdLatch := rfl
@[simp] theorem beginTick_seq (s : State) : (beginTick s).seq = s.seq := rfl
@[simp] theorem beginTick_ramp (s : State) : (beginTick s).ramp = s.ramp := rfl
@[simp] theorem beginTick_pid (s : State) : (beginTick s).pid = s.pid := rfl
@[simp] theorem beginTick_flatTop (s : State) : (beginTick s).flatTop = s.flatTop := rfl
@[simp] theorem beginTick_fbDly (s : State) : (beginTick s).fbDly = s.fbDly := rfl
@[simp] theorem beginTick_rebal (s : State) : (beginTick s).rebal = s.rebal := rfl
@[simp] theorem beginTick_satDet (s : State) : (beginTick s).satDet = s.satDet := rfl
@[simp] theorem beginTick_safe (s : State) : (beginTick s).safe = s.safe := rfl
@[simp] theorem beginTick_fbZeroCount (s : State) : (beginTick s).fbZeroCount = s.fbZeroCount := rfl
@[simp] theorem beginTick_drive (s : State) : (beginTick s).drive = s.drive := rfl
@[simp] theorem beginTick_flags (s : State) : (beginTick s).flags = s.flags := rfl
@[simp] theorem beginTick_ovl (s : State) : (beginTick s).ovl = s.ovl := rfl
@[simp] theorem beginTick_zcChg (s : State) : (beginTick s).zcChg = s.zcChg := rfl
@[simp] theorem beginTick_zcInv (s : State) : (beginTick s).zcInv = s.zcInv := rfl
@[simp] theorem beginTick_ports (s : State) : (beginTick s).ports = s.ports := rfl
@[simp] theorem beginTick_busRdata (s : State) : (beginTick s).busRdata = s.busRdata := rfl
@[simp] theorem beginTick_events (s : State) : (beginTick s).events = s.events := rfl

@[simp] theorem beginEvent_cfg (rest : List Event) (s : State) : (beginEvent rest s).cfg = s.cfg := rfl
@[simp] theorem beginEvent_cmdLatch (rest : List Event) (s : State) : (beginEvent rest s).cmdLatch = s.cmdLatch := rfl
@[simp] theorem beginEvent_seq (rest : List Event) (s : State) : (beginEvent rest s).seq = s.seq := rfl
@[simp] theorem beginEvent_ramp (rest : List Event) (s : State) : (beginEvent rest s).ramp = s.ramp := rfl
@[simp] theorem beginEvent_pid (rest : List Event) (s : State) : (beginEvent rest s).pid = s.pid := rfl
@[simp] theorem beginEvent_flatTop (rest : List Event) (s : State) : (beginEvent rest s).flatTop = s.flatTop := rfl
@[simp] theorem beginEvent_fbDly (rest : List Event) (s : State) : (beginEvent rest s).fbDly = s.fbDly := rfl
@[simp] theorem beginEvent_rebal (rest : List Event) (s : State) : (beginEvent rest s).rebal = s.rebal := rfl
@[simp] theorem beginEvent_satDet (rest : List Event) (s : State) : (beginEvent rest s).satDet = s.satDet := rfl
@[simp] theorem beginEvent_safe (rest : List Event) (s : State) : (beginEvent rest s).safe = s.safe := rfl
@[simp] theorem beginEvent_fbZeroCount (rest : List Event) (s : State) : (beginEvent rest s).fbZeroCount = s.fbZeroCount := rfl
@[simp] theorem beginEvent_drive (rest : List Event) (s : State) : (beginEvent rest s).drive = s.drive := rfl
@[simp] theorem beginEvent_flags (rest : List Event) (s : State) : (beginEvent rest s).flags = s.flags := rfl
@[simp] theorem beginEvent_ovl (rest : List Event) (s : State) : (beginEvent rest s).ovl = s.ovl := rfl
@[simp] theorem beginEvent_zcChg (rest : List Event) (s : State) : (beginEvent rest s).zcChg = s.zcChg := rfl
@[simp] theorem beginEvent_zcInv (rest : List Event) (s : State) : (beginEvent rest s).zcInv = s.zcInv := rfl
@[simp] theorem beginEvent_ports (rest : List Event) (s : State) : (beginEvent rest s).ports = s.ports := rfl

@[simp] theorem shiftFeedback_cfg (s : State) : (shiftFeedback s).cfg = s.cfg := rfl
@[simp] theorem shiftFeedback_cmdLatch (s : State) : (shiftFeedback s).cmdLatch = s.cmdLatch := rfl
@[simp] theorem shiftFeedback_seq (s : State) : (shiftFeedback s).seq = s.seq := rfl
@[simp] theorem shiftFeedback_ramp (s : State) : (shiftFeedback s).ramp = s.ramp := rfl
@[simp] theorem shiftFeedback_pid (s : State) : (shiftFeedback s).pid = s.pid := rfl
@[simp] theorem shiftFeedback_flatTop (s : State) : (shiftFeedback s).flatTop = s.flatTop := rfl
@[simp] theorem shiftFeedback_rebal (s : State) : (shiftFeedback s).rebal = s.rebal := rfl
@[simp] theorem shiftFeedback_satDet (s : State) : (shiftFeedback s).satDet = s.satDet := rfl
@[simp] theorem shiftFeedback_safe (s : State) : (shiftFeedback s).safe = s.safe := rfl
@[simp] theorem shiftFeedback_fbZeroCount (s : State) : (shiftFeedback s).fbZeroCount = s.fbZeroCount := rfl
@[simp] theorem shiftFeedback_drive (s : State) : (shiftFeedback s).drive = s.drive := rfl
@[simp] theorem shiftFeedback_flags (s : State) : (shiftFeedback s).flags = s.flags := rfl
@[simp] theorem shiftFeedback_ovl (s : State) : (shiftFeedback s).ovl = s.ovl := rfl
@[simp] theorem shiftFeedback_zcChg (s : State) : (shiftFeedback s).zcChg = s.zcChg := rfl
@[simp] theorem shiftFeedback_zcInv (s : State) : (shiftFeedback s).zcInv = s.zcInv := rfl
@[simp] theorem shiftFeedback_pulses (s : State) : (shiftFeedback s).pulses = s.pulses := rfl
@[simp] theorem shiftFeedback_ports (s : State) : (shiftFeedback s).ports = s.ports := rfl
@[simp] theorem shiftFeedback_busRdata (s : State) : (shiftFeedback s).busRdata = s.busRdata := rfl
@[simp] theorem shiftFeedback_events (s : State) : (shiftFeedback s).events = s.events := rfl

@[simp] theorem accumulate_cfg (s : State) : (accumulate s).cfg = s.cfg := rfl
@[simp] theorem accumulate_cmdLatch (s : State) : (accumulate s).cmdLatch = s.cmdLatch := rfl
@[simp] theorem accumulate_seq (s : State) : (accumulate s).seq = s.seq := rfl
@[simp] theorem accumulate_ramp (s : State) : (accumulate s).ramp = s.ramp := rfl
@[simp] theorem accumulate_pid (s : State) : (accumulate s).pid = s.pid := rfl
@[simp] theorem accumulate_flatTop (s : State) : (accumulate s).flatTop = s.flatTop := rfl
@[simp] theorem accumulate_fbDly (s : State) : (accumulate s).fbDly = s.fbDly := rfl
@[simp] theorem accumulate_safe (s : State) : (accumulate s).safe = s.safe := rfl
@[simp] theorem accumulate_fbZeroCount (s : State) : (accumulate s).fbZeroCount = s.fbZeroCount := rfl
@[simp] theorem accumulate_drive (s : State) : (accumulate s).drive = s.drive := rfl
@[simp] theorem accumulate_flags (s : State) : (accumulate s).flags = s.flags := rfl
@[simp] theorem accumulate_ovl (s : State) : (accumulate s).ovl = s.ovl := rfl
@[simp] theorem accumulate_zcChg (s : State) : (accumulate s).zcChg = s.zcChg := rfl
@[simp] theorem accumulate_zcInv (s : State) : (accumulate s).zcInv = s.zcInv := rfl
@[simp] theorem accumulate_pulses (s : State) : (accumulate s).pulses = s.pulses := rfl
@[simp] theorem accumulate_ports (s : State) : (accumulate s).ports = s.ports := rfl
@[simp] theorem accumulate_busRdata (s : State) : (accumulate s).busRdata = s.busRdata := rfl
@[simp] theorem accumulate_events (s : State) : (accumulate s).events = s.events := rfl

@[simp] theorem satIdle_cfg (s : State) : (satIdle s).cfg = s.cfg := rfl
@[simp] theorem satIdle_cmdLatch (s : State) : (satIdle s).cmdLatch = s.cmdLatch := rfl
@[simp] theorem satIdle_seq (s : State) : (satIdle s).seq = s.seq := rfl
@[simp] theorem satIdle_ramp (s : State) : (satIdle s).ramp = s.ramp := rfl
@[simp] theorem satIdle_pid (s : State) : (satIdle s).pid = s.pid := rfl
@[simp] theorem satIdle_flatTop (s : State) : (satIdle s).flatTop = s.flatTop := rfl
@[simp] theorem satIdle_fbDly (s : State) : (satIdle s).fbDly = s.fbDly := rfl
@[simp] theorem satIdle_rebal (s : State) : (satIdle s).rebal = s.rebal := rfl
@[simp] theorem satIdle_safe (s : State) : (satIdle s).safe = s.safe := rfl
@[simp] theorem satIdle_fbZeroCount (s : State) : (satIdle s).fbZeroCount = s.fbZeroCount := rfl
@[simp] theorem satIdle_drive (s : State) : (satIdle s).drive = s.drive := rfl
@[simp] theorem satIdle_flags (s : State) : (satIdle s).flags = s.flags := rfl
@[simp] theorem satIdle_ovl (s : State) : (satIdle s).ovl = s.ovl := rfl
@[simp] theorem satIdle_zcChg (s : State) : (satIdle s).zcChg = s.zcChg := rfl
@[simp] theorem satIdle_zcInv (s : State) : (satIdle s).zcInv = s.zcInv := rfl
@[simp] theorem satIdle_pulses (s : State) : (satIdle s).pulses = s.pulses := rfl
@[simp] theorem satIdle_ports (s : State) : (satIdle s).ports = s.ports := rfl
@[simp] theorem satIdle_busRdata (s : State) : (satIdle s).busRdata = s.busRdata := rfl
@[simp] theorem satIdle_events (s : State) : (satIdle s).events = s.events := rfl

@[simp] theorem idleTick_cfg (s : State) : (idleTick s).cfg = s.cfg := rfl
@[simp] theorem idleTick_cmdLatch (s : State) : (idleTick s).cmdLatch = s.cmdLatch := rfl
@[simp] theorem idleTick_seq (s : State) : (idleTick s).seq = s.seq := rfl
@[simp] theorem idleTick_ramp (s : State) : (idleTick s).ramp = s.ramp := rfl
@[simp] theorem idleTick_pid (s : State) : (idleTick s).pid = s.pid := rfl
@[simp] theorem idleTick_flatTop (s : State) : (idleTick s).flatTop = s.flatTop := rfl
@[simp] theorem idleTick_fbDly (s : State) : (idleTick s).fbDly = s.fbDly := rfl
@[simp] theorem idleTick_rebal (s : State) : (idleTick s).rebal = s.rebal := rfl
@[simp] theorem idleTick_satDet (s : State) : (idleTick s).satDet = s.satDet := rfl
@[simp] theorem idleTick_safe (s : State) : (idleTick s).safe = s.safe := rfl
@[simp] theorem idleTick_fbZeroCount (s : State) : (idleTick s).fbZeroCount = s.fbZeroCount := rfl
@[simp] theorem idleTick_flags (s : State) : (idleTick s).flags = s.flags := rfl
@[simp] theorem idleTick_ovl (s : State) : (idleTick s).ovl = s.ovl := rfl
@[simp] theorem idleTick_zcChg (s : State) : (idleTick s).zcChg = s.zcChg := rfl
@[simp] theorem idleTick_zcInv (s : State) : (idleTick s).zcInv = s.zcInv := rfl
@[simp] theorem idleTick_pulses (s : State) : (idleTick s).pulses = s.pulses := rfl
@[simp] theorem idleTick_ports (s : State) : (idleTick s).ports = s.ports := rfl
@[simp] theorem idleTick_busRdata (s : State) : (idleTick s).busRdata = s.busRdata := rfl
@[simp] theorem idleTick_events (s : State) : (idleTick s).events = s.events := rfl

@[simp] theorem boundaryCommon_cfg (s : State) : (boundaryCommon s).cfg = s.cfg := rfl
@[simp] theorem boundaryCommon_cmdLatch (s : State) : (boundaryCommon s).cmdLatch = s.cmdLatch := rfl
@[simp] theorem boundaryCommon_fbDly (s : State) : (boundaryCommon s).fbDly = s.fbDly := rfl
@[simp] theorem boundaryCommon_safe (s : State) : (boundaryCommon s).safe = s.safe := rfl
@[simp] theorem boundaryCommon_fbZeroCount (s : State) : (boundaryCommon s).fbZeroCount = s.fbZeroCount := rfl
@[simp] theorem boundaryCommon_drive (s : State) : (boundaryCommon s).drive = s.drive := rfl
@[simp] theorem boundaryCommon_flags (s : State) : (boundaryCommon s).flags = s.flags := rfl
@[simp] theorem boundaryCommon_ovl (s : State) : (boundaryCommon s).ovl = s.ovl := rfl
@[simp] theorem boundaryCommon_zcChg (s : State) : (boundaryCommon s).zcChg = s.zcChg := rfl
@[simp] theorem boundaryCommon_zcInv (s : State) : (boundaryCommon s).zcInv = s.zcInv := rfl
@[simp] theorem boundaryCommon_ports (s : State) : (boundaryCommon s).ports = s.ports := rfl
@[simp] theorem boundaryCommon_busRdata (s : State) : (boundaryCommon s).busRdata = s.busRdata := rfl
@[simp] theorem boundaryCommon_events (s : State) : (boundaryCommon s).events = s.events := rfl

@[simp] theorem endRun_cfg (s : State) : (endRun s).cfg = s.cfg := rfl
@[simp] theorem endRun_cmdLatch (s : State) : (endRun s).cmdLatch = s.cmdLatch := rfl
@[simp] theorem endRun_safe (s : State) : (endRun s).safe = s.safe := rfl
@[simp] theorem endRun_flags (s : State) : (endRun s).flags = s.flags := rfl
@[simp] theorem endRun_ovl (s : State) : (endRun s).ovl = s.ovl := rfl
@[simp] theorem endRun_zcChg (s : State) : (endRun s).zcChg = s.zcChg := rfl
@[simp] theorem endRun_zcInv (s : State) : (endRun s).zcInv = s.zcInv := rfl
@[simp] theorem endRun_ports (s : State) : (endRun s).ports = s.ports := rfl
@[simp] theorem endRun_busRdata (s : State) : (endRun s).busRdata = s.busRdata := rfl
@[simp] theorem endRun_events (s : State) : (endRun s).events = s.events := rfl

@[simp] theorem applyStart_cfg (k : StartCmd) (s : State) : (applyStart k s).cfg = s.cfg := rfl
@[simp] theorem applyStart_cmdLatch (k : StartCmd) (s : State) : (applyStart k s).cmdLatch = s.cmdLatch := rfl
@[simp] theorem applyStart_flags (k : StartCmd) (s : State) : (applyStart k s).flags = s.flags := rfl
@[simp] theorem applyStart_ovl (k : StartCmd) (s : State) : (applyStart k s).ovl = s.ovl := rfl
@[simp] theorem applyStart_zcChg (k : StartCmd) (s : State) : (applyStart k s).zcChg = s.zcChg := rfl
@[simp] theorem applyStart_zcInv (k : StartCmd) (s : State) : (applyStart k s).zcInv = s.zcInv := rfl
@[simp] theorem applyStart_pulses (k : StartCmd) (s : State) : (applyStart k s).pulses = s.pulses := rfl
@[simp] theorem applyStart_ports (k : StartCmd) (s : State) : (applyStart k s).ports = s.ports := rfl
@[simp] theorem applyStart_busRdata (k : StartCmd) (s : State) : (applyStart k s).busRdata = s.busRdata := rfl
@[simp] theorem applyStart_events (k : StartCmd) (s : State) : (applyStart k s).events = s.events := rfl

@[simp] theorem ovlStepBegin_cfg (s : State) : (ovlStepBegin s).cfg = s.cfg := rfl
@[simp] theorem ovlStepBegin_cmdLatch (s : State) : (ovlStepBegin s).cmdLatch = s.cmdLatch := rfl
@[simp] theorem ovlStepBegin_seq (s : State) : (ovlStepBegin s).seq = s.seq := rfl
@[simp] theorem ovlStepBegin_ramp (s : State) : (ovlStepBegin s).ramp = s.ramp := rfl
@[simp] theorem ovlStepBegin_pid (s : State) : (ovlStepBegin s).pid = s.pid := rfl
@[simp] theorem ovlStepBegin_flatTop (s : State) : (ovlStepBegin s).flatTop = s.flatTop := rfl
@[simp] theorem ovlStepBegin_fbDly (s : State) : (ovlStepBegin s).fbDly = s.fbDly := rfl
@[simp] theorem ovlStepBegin_rebal (s : State) : (ovlStepBegin s).rebal = s.rebal := rfl
@[simp] theorem ovlStepBegin_satDet (s : State) : (ovlStepBegin s).satDet = s.satDet := rfl
@[simp] theorem ovlStepBegin_safe (s : State) : (ovlStepBegin s).safe = s.safe := rfl
@[simp] theorem ovlStepBegin_fbZeroCount (s : State) : (ovlStepBegin s).fbZeroCount = s.fbZeroCount := rfl
@[simp] theorem ovlStepBegin_drive (s : State) : (ovlStepBegin s).drive = s.drive := rfl
@[simp] theorem ovlStepBegin_flags (s : State) : (ovlStepBegin s).flags = s.flags := rfl
@[simp] theorem ovlStepBegin_zcChg (s : State) : (ovlStepBegin s).zcChg = s.zcChg := rfl
@[simp] theorem ovlStepBegin_zcInv (s : State) : (ovlStepBegin s).zcInv = s.zcInv := rfl
@[simp] theorem ovlStepBegin_pulses (s : State) : (ovlStepBegin s).pulses = s.pulses := rfl
@[simp] theorem ovlStepBegin_ports (s : State) : (ovlStepBegin s).ports = s.ports := rfl
@[simp] theorem ovlStepBegin_busRdata (s : State) : (ovlStepBegin s).busRdata = s.busRdata := rfl
@[simp] theorem ovlStepBegin_events (s : State) : (ovlStepBegin s).events = s.events := rfl

@[simp] theorem ovlCount_cfg (c : Bool) (s : State) : (ovlCount c s).cfg = s.cfg := rfl
@[simp] theorem ovlCount_cmdLatch (c : Bool) (s : State) : (ovlCount c s).cmdLatch = s.cmdLatch := rfl
@[simp] theorem ovlCount_seq (c : Bool) (s : State) : (ovlCount c s).seq = s.seq := rfl
@[simp] theorem ovlCount_ramp (c : Bool) (s : State) : (ovlCount c s).ramp = s.ramp := rfl
@[simp] theorem ovlCount_pid (c : Bool) (s : State) : (ovlCount c s).pid = s.pid := rfl
@[simp] theorem ovlCount_flatTop (c : Bool) (s : State) : (ovlCount c s).flatTop = s.flatTop := rfl
@[simp] theorem ovlCount_fbDly (c : Bool) (s : State) : (ovlCount c s).fbDly = s.fbDly := rfl
@[simp] theorem ovlCount_rebal (c : Bool) (s : State) : (ovlCount c s).rebal = s.rebal := rfl
@[simp] theorem ovlCount_satDet (c : Bool) (s : State) : (ovlCount c s).satDet = s.satDet := rfl
@[simp] theorem ovlCount_safe (c : Bool) (s : State) : (ovlCount c s).safe = s.safe := rfl
@[simp] theorem ovlCount_fbZeroCount (c : Bool) (s : State) : (ovlCount c s).fbZeroCount = s.fbZeroCount := rfl
@[simp] theorem ovlCount_drive (c : Bool) (s : State) : (ovlCount c s).drive = s.drive := rfl
@[simp] theorem ovlCount_flags (c : Bool) (s : State) : (ovlCount c s).flags = s.flags := rfl
@[simp] theorem ovlCount_zcChg (c : Bool) (s : State) : (ovlCount c s).zcChg = s.zcChg := rfl
@[simp] theorem ovlCount_zcInv (c : Bool) (s : State) : (ovlCount c s).zcInv = s.zcInv := rfl
@[simp] theorem ovlCount_pulses (c : Bool) (s : State) : (ovlCount c s).pulses = s.pulses := rfl
@[simp] theorem ovlCount_ports (c : Bool) (s : State) : (ovlCount c s).ports = s.ports := rfl
@[simp] theorem ovlCount_busRdata (c : Bool) (s : State) : (ovlCount c s).busRdata = s.busRdata := rfl
@[simp] theorem ovlCount_events (c : Bool) (s : State) : (ovlCount c s).events = s.events := rfl

@[simp] theorem ovlEarlyClear_cfg (s : State) : (ovlEarlyClear s).cfg = s.cfg := rfl
@[simp] theorem ovlEarlyClear_cmdLatch (s : State) : (ovlEarlyClear s).cmdLatch = s.cmdLatch := rfl
@[simp] theorem ovlEarlyClear_seq (s : State) : (ovlEarlyClear s).seq = s.seq := rfl
@[simp] theorem ovlEarlyClear_ramp (s : State) : (ovlEarlyClear s).ramp = s.ramp := rfl
@[simp] theorem ovlEarlyClear_pid (s : State) : (ovlEarlyClear s).pid = s.pid := rfl
@[simp] theorem ovlEarlyClear_flatTop (s : State) : (ovlEarlyClear s).flatTop = s.flatTop := rfl
@[simp] theorem ovlEarlyClear_fbDly (s : State) : (ovlEarlyClear s).fbDly = s.fbDly := rfl
@[simp] theorem ovlEarlyClear_rebal (s : State) : (ovlEarlyClear s).rebal = s.rebal := rfl
@[simp] theorem ovlEarlyClear_satDet (s : State) : (ovlEarlyClear s).satDet = s.satDet := rfl
@[simp] theorem ovlEarlyClear_safe (s : State) : (ovlEarlyClear s).safe = s.safe := rfl
@[simp] theorem ovlEarlyClear_fbZeroCount (s : State) : (ovlEarlyClear s).fbZeroCount = s.fbZeroCount := rfl
@[simp] theorem ovlEarlyClear_drive (s : State) : (ovlEarlyClear s).drive = s.drive := rfl
@[simp] theorem ovlEarlyClear_flags (s : State) : (ovlEarlyClear s).flags = s.flags := rfl
@[simp] theorem ovlEarlyClear_zcChg (s : State) : (ovlEarlyClear s).zcChg = s.zcChg := rfl
@[simp] theorem ovlEarlyClear_zcInv (s : State) : (ovlEarlyClear s).zcInv = s.zcInv := rfl
@[simp] theorem ovlEarlyClear_pulses (s : State) : (ovlEarlyClear s).pulses = s.pulses := rfl
@[simp] theorem ovlEarlyClear_ports (s : State) : (ovlEarlyClear s).ports = s.ports := rfl
@[simp] theorem ovlEarlyClear_busRdata (s : State) : (ovlEarlyClear s).busRdata = s.busRdata := rfl
@[simp] theorem ovlEarlyClear_events (s : State) : (ovlEarlyClear s).events = s.events := rfl

@[simp] theorem ovlTighten_cfg (s : State) : (ovlTighten s).cfg = s.cfg := rfl
@[simp] theorem ovlTighten_cmdLatch (s : State) : (ovlTighten s).cmdLatch = s.cmdLatch := rfl
@[simp] theorem ovlTighten_seq (s : State) : (ovlTighten s).seq = s.seq := rfl
@[simp] theorem ovlTighten_ramp (s : State) : (ovlTighten s).ramp = s.ramp := rfl
@[simp] theorem ovlTighten_pid (s : State) : (ovlTighten s).pid = s.pid := rfl
@[simp] theorem ovlTighten_flatTop (s : State) : (ovlTighten s).flatTop = s.flatTop := rfl
@[simp] theorem ovlTighten_fbDly (s : State) : (ovlTighten s).fbDly = s.fbDly := rfl
@[simp] theorem ovlTighten_rebal (s : State) : (ovlTighten s).rebal = s.rebal := rfl
@[simp] theorem ovlTighten_satDet (s : State) : (ovlTighten s).satDet = s.satDet := rfl
@[simp] theorem ovlTighten_safe (s : State) : (ovlTighten s).safe = s.safe := rfl
@[simp] theorem ovlTighten_fbZeroCount (s : State) : (ovlTighten s).fbZeroCount = s.fbZeroCount := rfl
@[simp] theorem ovlTighten_drive (s : State) : (ovlTighten s).drive = s.drive := rfl
@[simp] theorem ovlTighten_flags (s : State) : (ovlTighten s).flags = s.flags := rfl
@[simp] theorem ovlTighten_zcChg (s : State) : (ovlTighten s).zcChg = s.zcChg := rfl
@[simp] theorem ovlTighten_zcInv (s : State) : (ovlTighten s).zcInv = s.zcInv := rfl
@[simp] theorem ovlTighten_pulses (s : State) : (ovlTighten s).pulses = s.pulses := rfl
@[simp] theorem ovlTighten_ports (s : State) : (ovlTighten s).ports = s.ports := rfl
@[simp] theorem ovlTighten_busRdata (s : State) : (ovlTighten s).busRdata = s.busRdata := rfl
@[simp] theorem ovlTighten_events (s : State) : (ovlTighten s).events = s.events := rfl

/-! ### Updates by cases -/

@[simp] theorem driveDuty_cfg (d : U16) (s : State) : (driveDuty d s).cfg = s.cfg := by unfold driveDuty; split <;> rfl
@[simp] theorem driveDuty_cmdLatch (d : U16) (s : State) : (driveDuty d s).cmdLatch = s.cmdLatch := by unfold driveDuty; split <;> rfl
@[simp] theorem driveDuty_seq (d : U16) (s : State) : (driveDuty d s).seq = s.seq := by unfold driveDuty; split <;> rfl
@[simp] theorem driveDuty_ramp (d : U16) (s : State) : (driveDuty d s).ramp = s.ramp := by unfold driveDuty; split <;> rfl
@[simp] theorem driveDuty_pid (d : U16) (s : State) : (driveDuty d s).pid = s.pid := by unfold driveDuty; split <;> rfl
@[simp] theorem driveDuty_flatTop (d : U16) (s : State) : (driveDuty d s).flatTop = s.flatTop := by unfold driveDuty; split <;> rfl
@[simp] theorem driveDuty_fbDly (d : U16) (s : State) : (driveDuty d s).fbDly = s.fbDly := by unfold driveDuty; split <;> rfl
@[simp] theorem driveDuty_rebal (d : U16) (s : State) : (driveDuty d s).rebal = s.rebal := by unfold driveDuty; split <;> rfl
@[simp] theorem driveDuty_satDet (d : U16) (s : State) : (driveDuty d s).satDet = s.satDet := by unfold driveDuty; split <;> rfl
@[simp] theorem driveDuty_safe (d : U16) (s : State) : (driveDuty d s).safe = s.safe := by unfold driveDuty; split <;> rfl
@[simp] theorem driveDuty_fbZeroCount (d : U16) (s : State) : (driveDuty d s).fbZeroCount = s.fbZeroCount := by unfold driveDuty; split <;> rfl
@[simp] theorem driveDuty_flags (d : U16) (s : State) : (driveDuty d s).flags = s.flags := by unfold driveDuty; split <;> rfl
@[simp] theorem driveDuty_ovl (d : U16) (s : State) : (driveDuty d s).ovl = s.ovl := by unfold driveDuty; split <;> rfl
@[simp] theorem driveDuty_zcChg (d : U16) (s : State) : (driveDuty d s).zcChg = s.zcChg := by unfold driveDuty; split <;> rfl
@[simp] theorem driveDuty_zcInv (d : U16) (s : State) : (driveDuty d s).zcInv = s.zcInv := by unfold driveDuty; split <;> rfl
@[simp] theorem driveDuty_pulses (d : U16) (s : State) : (driveDuty d s).pulses = s.pulses := by unfold driveDuty; split <;> rfl
@[simp] theorem driveDuty_ports (d : U16) (s : State) : (driveDuty d s).ports = s.ports := by unfold driveDuty; split <;> rfl
@[simp] theorem driveDuty_busRdata (d : U16) (s : State) : (driveDuty d s).busRdata = s.busRdata := by unfold driveDuty; split <;> rfl
@[simp] theorem driveDuty_events (d : U16) (s : State) : (driveDuty d s).events = s.events := by unfold driveDuty; split <;> rfl

@[simp] theorem driveStep_cfg (d : U16) (s : State) : (driveStep d s).cfg = s.cfg := by unfold driveStep driveDuty; split <;> [(split <;> rfl); rfl]
@[simp] theorem driveStep_cmdLatch (d : U16) (s : State) : (driveStep d s).cmdLatch = s.cmdLatch := by unfold driveStep driveDuty; split <;> [(split <;> rfl); rfl]
@[simp] theorem driveStep_seq (d : U16) (s : State) : (driveStep d s).seq = s.seq := by unfold driveStep driveDuty; split <;> [(split <;> rfl); rfl]
@[simp] theorem driveStep_ramp (d : U16) (s : State) : (driveStep d s).ramp = s.ramp := by unfold driveStep driveDuty; split <;> [(split <;> rfl); rfl]
@[simp] theorem driveStep_pid (d : U16) (s : State) : (driveStep d s).pid = s.pid := by unfold driveStep driveDuty; split <;> [(split <;> rfl); rfl]
@[simp] theorem driveStep_flatTop (d : U16) (s : State) : (driveStep d s).flatTop = s.flatTop := by unfold driveStep driveDuty; split <;> [(split <;> rfl); rfl]
@[simp] theorem driveStep_fbDly (d : U16) (s : State) : (driveStep d s).fbDly = s.fbDly := by unfold driveStep driveDuty; split <;> [(split <;> rfl); rfl]
@[simp] theorem driveStep_rebal (d : U16) (s : State) : (driveStep d s).rebal = s.rebal := by unfold driveStep driveDuty; split <;> [(split <;> rfl); rfl]
@[simp] theorem driveStep_satDet (d : U16) (s : State) : (driveStep d s).satDet = s.satDet := by unfold driveStep driveDuty; split <;> [(split <;> rfl); rfl]
@[simp] theorem driveStep_safe (d : U16) (s : State) : (driveStep d s).safe = s.safe := by unfold driveStep driveDuty; split <;> [(split <;> rfl); rfl]
@[simp] theorem driveStep_fbZeroCount (d : U16) (s : State) : (driveStep d s).fbZeroCount = s.fbZeroCount := by unfold driveStep driveDuty; split <;> [(split <;> rfl); rfl]
@[simp] theorem driveStep_flags (d : U16) (s : State) : (driveStep d s).flags = s.flags := by unfold driveStep driveDuty; split <;> [(split <;> rfl); rfl]
@[simp] theorem driveStep_zcChg (d : U16) (s : State) : (driveStep d s).zcChg = s.zcChg := by unfold driveStep driveDuty; split <;> [(split <;> rfl); rfl]
@[simp] theorem driveStep_zcInv (d : U16) (s : State) : (driveStep d s).zcInv = s.zcInv := by unfold driveStep driveDuty; split <;> [(split <;> rfl); rfl]
@[simp] theorem driveStep_pulses (d : U16) (s : State) : (driveStep d s).pulses = s.pulses := by unfold driveStep driveDuty; split <;> [(split <;> rfl); rfl]
@[simp] theorem driveStep_ports (d : U16) (s : State) : (driveStep d s).ports = s.ports := by unfold driveStep driveDuty; split <;> [(split <;> rfl); rfl]
@[simp] theorem driveStep_busRdata (d : U16) (s : State) : (driveStep d s).busRdata = s.busRdata := by unfold driveStep driveDuty; split <;> [(split <;> rfl); rfl]
@[simp] theorem driveStep_events (d : U16) (s : State) : (driveStep d s).events = s.events := by unfold driveStep driveDuty; split <;> [(split <;> rfl); rfl]

@[simp] theorem nearZeroTest_cfg (f : S17) (s : State) : (nearZeroTest f s).cfg = s.cfg := by unfold nearZeroTest raiseFault; simp only []; split <;> split <;> rfl
@[simp] theorem nearZeroTest_cmdLatch (f : S17) (s : State) : (nearZeroTest f s).cmdLatch = s.cmdLatch := by unfold nearZeroTest raiseFault; simp only []; split <;> split <;> rfl
@[simp] theorem nearZeroTest_ramp (f : S17) (s : State) : (nearZeroTest f s).ramp = s.ramp := by unfold nearZeroTest raiseFault; simp only []; split <;> split <;> rfl
@[simp] theorem nearZeroTest_pid (f : S17) (s : State) : (nearZeroTest f s).pid = s.pid := by unfold nearZeroTest raiseFault; simp only []; split <;> split <;> rfl
@[simp] theorem nearZeroTest_flatTop (f : S17) (s : State) : (nearZeroTest f s).flatTop = s.flatTop := by unfold nearZeroTest raiseFault; simp only []; split <;> split <;> rfl
@[simp] theorem nearZeroTest_fbDly (f : S17) (s : State) : (nearZeroTest f s).fbDly = s.fbDly := by unfold nearZeroTest raiseFault; simp only []; split <;> split <;> rfl
@[simp] theorem nearZeroTest_rebal (f : S17) (s : State) : (nearZeroTest f s).rebal = s.rebal := by unfold nearZeroTest raiseFault; simp only []; split <;> split <;> rfl
@[simp] theorem nearZeroTest_satDet (f : S17) (s : State) : (nearZeroTest f s).satDet = s.satDet := by unfold nearZeroTest raiseFault; simp only []; split <;> split <;> rfl
@[simp] theorem nearZeroTest_safe (f : S17) (s : State) : (nearZeroTest f s).safe = s.safe := by unfold nearZeroTest raiseFault; simp only []; split <;> split <;> rfl
@[simp] theorem nearZeroTest_drive (f : S17) (s : State) : (nearZeroTest f s).drive = s.drive := by unfold nearZeroTest raiseFault; simp only []; split <;> split <;> rfl
@[simp] theorem nearZeroTest_ovl (f : S17) (s : State) : (nearZeroTest f s).ovl = s.ovl := by unfold nearZeroTest raiseFault; simp only []; split <;> split <;> rfl
@[simp] theorem nearZeroTest_zcChg (f : S17) (s : State) : (nearZeroTest f s).zcChg = s.zcChg := by unfold nearZeroTest raiseFault; simp only []; split <;> split <;> rfl
@[simp] theorem nearZeroTest_zcInv (f : S17) (s : State) : (nearZeroTest f s).zcInv = s.zcInv := by unfold nearZeroTest raiseFault; simp only []; split <;> split <;> rfl
@[simp] theorem nearZeroTest_pulses (f : S17) (s : State) : (nearZeroTest f s).pulses = s.pulses := by unfold nearZeroTest raiseFault; simp only []; split <;> split <;> rfl
@[simp] theorem nearZeroTest_ports (f : S17) (s : State) : (nearZeroTest f s).ports = s.ports := by unfold nearZeroTest raiseFault; simp only []; split <;> split <;> rfl
@[simp] theorem nearZeroTest_busRdata (f : S17) (s : State) : (nearZeroTest f s).busRdata = s.busRdata := by unfold nearZeroTest raiseFault; simp only []; split <;> split <;> rfl
@[simp] theorem nearZeroTest_events (f : S17) (s : State) : (nearZeroTest f s).events = s.events := by unfold nearZeroTest raiseFault; simp only []; split <;> split <;> rfl

@[simp] theorem reversedTest_cfg (f : S17) (s : State) : (reversedTest f s).cfg = s.cfg := by unfold reversedTest raiseFault; split <;> rfl
@[simp] theorem reversedTest_cmdLatch (f : S17) (s : State) : (reversedTest f s).cmdLatch = s.cmdLatch := by unfold reversedTest raiseFault; split <;> rfl
@[simp] theorem reversedTest_ramp (f : S17) (s : State) : (reversedTest f s).ramp = s.ramp := by unfold reversedTest raiseFault; split <;> rfl
@[simp] theorem reversedTest_pid (f : S17) (s : State) : (reversedTest f s).pid = s.pid := by unfold reversedTest raiseFault; split <;> rfl
@[simp] theorem reversedTest_flatTop (f : S17) (s : State) : (reversedTest f s).flatTop = s.flatTop := by unfold reversedTest raiseFault; split <;> rfl
@[simp] theorem reversedTest_fbDly (f : S17) (s : State) : (reversedTest f s).fbDly = s.fbDly := by unfold reversedTest raiseFault; split <;> rfl
@[simp] theorem reversedTest_rebal (f : S17) (s : State) : (reversedTest f s).rebal = s.rebal := by unfold reversedTest raiseFault; split <;> rfl
@[simp] theorem reversedTest_satDet (f : S17) (s : State) : (reversedTest f s).satDet = s.satDet := by unfold reversedTest raiseFault; split <;> rfl
@[simp] theorem reversedTest_safe (f : S17) (s : State) : (reversedTest f s).safe = s.safe := by unfold reversedTest raiseFault; split <;> rfl
@[simp] theorem reversedTest_fbZeroCount (f : S17) (s : State) : (reversedTest f s).fbZeroCount = s.fbZeroCount := by unfold reversedTest raiseFault; split <;> rfl
@[simp] theorem reversedTest_drive (f : S17) (s : State) : (reversedTest f s).drive = s.drive := by unfold reversedTest raiseFault; split <;> rfl
@[simp] theorem reversedTest_ovl (f : S17) (s : State) : (reversedTest f s).ovl = s.ovl := by unfold reversedTest raiseFault; split <;> rfl
@[simp] theorem reversedTest_zcChg (f : S17) (s : State) : (reversedTest f s).zcChg = s.zcChg := by unfold reversedTest raiseFault; split <;> rfl
@[simp] theorem reversedTest_zcInv (f : S17) (s : State) : (reversedTest f s).zcInv = s.zcInv := by unfold reversedTest raiseFault; split <;> rfl
@[simp] theorem reversedTest_pulses (f : S17) (s : State) : (reversedTest f s).pulses = s.pulses := by unfold reversedTest raiseFault; split <;> rfl
@[simp] theorem reversedTest_ports (f : S17) (s : State) : (reversedTest f s).ports = s.ports := by unfold reversedTest raiseFault; split <;> rfl
@[simp] theorem reversedTest_busRdata (f : S17) (s : State) : (reversedTest f s).busRdata = s.busRdata := by unfold reversedTest raiseFault; split <;> rfl
@[simp] theorem reversedTest_events (f : S17) (s : State) : (reversedTest f s).events = s.events := by unfold reversedTest raiseFault; split <;> rfl

@[simp] theorem closeFlatTop_cfg (s : State) : (closeFlatTop s).cfg = s.cfg := by unfold closeFlatTop; split <;> rfl
@[simp] theorem closeFlatTop_cmdLatch (s : State) : (closeFlatTop s).cmdLatch = s.cmdLatch := by unfold closeFlatTop; split <;> rfl
@[simp] theorem closeFlatTop_seq (s : State) : (closeFlatTop s).seq = s.seq := by unfold closeFlatTop; split <;> rfl
@[simp] theorem closeFlatTop_ramp (s : State) : (closeFlatTop s).ramp = s.ramp := by unfold closeFlatTop; split <;> rfl
@[simp] theorem closeFlatTop_fbDly (s : State) : (closeFlatTop s).fbDly = s.fbDly := by unfold closeFlatTop; split <;> rfl
@[simp] theorem closeFlatTop_rebal (s : State) : (closeFlatTop s).rebal = s.rebal := by unfold closeFlatTop; split <;> rfl
@[simp] theorem closeFlatTop_satDet (s : State) : (closeFlatTop s).satDet = s.satDet := by unfold closeFlatTop; split <;> rfl
@[simp] theorem closeFlatTop_safe (s : State) : (closeFlatTop s).safe = s.safe := by unfold closeFlatTop; split <;> rfl
@[simp] theorem closeFlatTop_fbZeroCount (s : State) : (closeFlatTop s).fbZeroCount = s.fbZeroCount := by unfold closeFlatTop; split <;> rfl
@[simp] theorem closeFlatTop_drive (s : State) : (closeFlatTop s).drive = s.drive := by unfold closeFlatTop; split <;> rfl
@[simp] theorem closeFlatTop_flags (s : State) : (closeFlatTop s).flags = s.flags := by unfold closeFlatTop; split <;> rfl
@[simp] theorem closeFlatTop_ovl (s : State) : (closeFlatTop s).ovl = s.ovl := by unfold closeFlatTop; split <;> rfl
@[simp] theorem closeFlatTop_zcChg (s : State) : (closeFlatTop s).zcChg = s.zcChg := by unfold closeFlatTop; split <;> rfl
@[simp] theorem closeFlatTop_zcInv (s : State) : (closeFlatTop s).zcInv = s.zcInv := by unfold closeFlatTop; split <;> rfl
@[simp] theorem closeFlatTop_pulses (s : State) : (closeFlatTop s).pulses = s.pulses := by unfold closeFlatTop; split <;> rfl
@[simp] theorem closeFlatTop_ports (s : State) : (closeFlatTop s).ports = s.ports := by unfold closeFlatTop; split <;> rfl
@[simp] theorem closeFlatTop_busRdata (s : State) : (closeFlatTop s).busRdata = s.busRdata := by unfold closeFlatTop; split <;> rfl
@[simp] theorem closeFlatTop_events (s : State) : (closeFlatTop s).events = s.events := by unfold closeFlatTop; split <;> rfl

@[simp] theorem integrate_cfg (e : S32) (s : State) : (integrate e s).cfg = s.cfg := by unfold integrate; split <;> rfl
@[simp] theorem integrate_cmdLatch (e : S32) (s : State) : (integrate e s).cmdLatch = s.cmdLatch := by unfold integrate; split <;> rfl
@[simp] theorem integrate_seq (e : S32) (s : State) : (integrate e s).seq = s.seq := by unfold integrate; split <;> rfl
@[simp] theorem integrate_ramp (e : S32) (s : State) : (integrate e s).ramp = s.ramp := by unfold integrate; split <;> rfl
@[simp] theorem integrate_flatTop (e : S32) (s : State) : (integrate e s).flatTop = s.flatTop := by unfold integrate; split <;> rfl
@[simp] theorem integrate_fbDly (e : S32) (s : State) : (integrate e s).fbDly = s.fbDly := by unfold integrate; split <;> rfl
@[simp] theorem integrate_rebal (e : S32) (s : State) : (integrate e s).rebal = s.rebal := by unfold integrate; split <;> rfl
@[simp] theorem integrate_satDet (e : S32) (s : State) : (integrate e s).satDet = s.satDet := by unfold integrate; split <;> rfl
@[simp] theorem integrate_safe (e : S32) (s : State) : (integrate e s).safe = s.safe := by unfold integrate; split <;> rfl
@[simp] theorem integrate_fbZeroCount (e : S32) (s : State) : (integrate e s).fbZeroCount = s.fbZeroCount := by unfold integrate; split <;> rfl
@[simp] theorem integrate_drive (e : S32) (s : State) : (integrate e s).drive = s.drive := by unfold integrate; split <;> rfl
@[simp] theorem integrate_flags (e : S32) (s : State) : (integrate e s).flags = s.flags := by unfold integrate; split <;> rfl
@[simp] theorem integrate_ovl (e : S32) (s : State) : (integrate e s).ovl = s.ovl := by unfold integrate; split <;> rfl
@[simp] theorem integrate_zcChg (e : S32) (s : State) : (integrate e s).zcChg = s.zcChg := by unfold integrate; split <;> rfl
@[simp] theorem integrate_zcInv (e : S32) (s : State) : (integrate e s).zcInv = s.zcInv := by unfold integrate; split <;> rfl
@[simp] theorem integrate_pulses (e : S32) (s : State) : (integrate e s).pulses = s.pulses := by unfold integrate; split <;> rfl
@[simp] theorem integrate_ports (e : S32) (s : State) : (integrate e s).ports = s.ports := by unfold integrate; split <;> rfl
@[simp] theorem integrate_busRdata (e : S32) (s : State) : (integrate e s).busRdata = s.busRdata := by unfold integrate; split <;> rfl
@[simp] theorem integrate_events (e : S32) (s : State) : (integrate e s).events = s.events := by unfold integrate; split <;> rfl

@[simp] theorem openFlatTop_cfg (r : S32) (s : State) : (openFlatTop r s).cfg = s.cfg := by unfold openFlatTop; split <;> rfl
@[simp] theorem openFlatTop_cmdLatch (r : S32) (s : State) : (openFlatTop r s).cmdLatch = s.cmdLatch := by unfold openFlatTop; split <;> rfl
@[simp] theorem openFlatTop_seq (r : S32) (s : State) : (openFlatTop r s).seq = s.seq := by unfold openFlatTop; split <;> rfl
@[simp] theorem openFlatTop_ramp (r : S32) (s : State) : (openFlatTop r s).ramp = s.ramp := by unfold openFlatTop; split <;> rfl
@[simp] theorem openFlatTop_fbDly (r : S32) (s : State) : (openFlatTop r s).fbDly = s.fbDly := by unfold openFlatTop; split <;> rfl
@[simp] theorem openFlatTop_rebal (r : S32) (s : State) : (openFlatTop r s).rebal = s.rebal := by unfold openFlatTop; split <;> rfl
@[simp] theorem openFlatTop_satDet (r : S32) (s : State) : (openFlatTop r s).satDet = s.satDet := by unfold openFlatTop; split <;> rfl
@[simp] theorem openFlatTop_safe (r : S32) (s : State) : (openFlatTop r s).safe = s.safe := by unfold openFlatTop; split <;> rfl
@[simp] theorem openFlatTop_fbZeroCount (r : S32) (s : State) : (openFlatTop r s).fbZeroCount = s.fbZeroCount := by unfold openFlatTop; split <;> rfl
@[simp] theorem openFlatTop_drive (r : S32) (s : State) : (openFlatTop r s).drive = s.drive := by unfold openFlatTop; split <;> rfl
@[simp] theorem openFlatTop_flags (r : S32) (s : State) : (openFlatTop r s).flags = s.flags := by unfold openFlatTop; split <;> rfl
@[simp] theorem openFlatTop_ovl (r : S32) (s : State) : (openFlatTop r s).ovl = s.ovl := by unfold openFlatTop; split <;> rfl
@[simp] theorem openFlatTop_zcChg (r : S32) (s : State) : (openFlatTop r s).zcChg = s.zcChg := by unfold openFlatTop; split <;> rfl
@[simp] theorem openFlatTop_zcInv (r : S32) (s : State) : (openFlatTop r s).zcInv = s.zcInv := by unfold openFlatTop; split <;> rfl
@[simp] theorem openFlatTop_pulses (r : S32) (s : State) : (openFlatTop r s).pulses = s.pulses := by unfold openFlatTop; split <;> rfl
@[simp] theorem openFlatTop_ports (r : S32) (s : State) : (openFlatTop r s).ports = s.ports := by unfold openFlatTop; split <;> rfl
@[simp] theorem openFlatTop_busRdata (r : S32) (s : State) : (openFlatTop r s).busRdata = s.busRdata := by unfold openFlatTop; split <;> rfl
@[simp] theorem openFlatTop_events (r : S32) (s : State) : (openFlatTop r s).events = s.events := by unfold openFlatTop; split <;> rfl

@[simp] theorem rebalance_cfg (s : State) : (rebalance s).cfg = s.cfg := by unfold rebalance; split <;> [rfl; (split <;> rfl)]
@[simp] theorem rebalance_cmdLatch (s : State) : (rebalance s).cmdLatch = s.cmdLatch := by unfold rebalance; split <;> [rfl; (split <;> rfl)]
@[simp] theorem rebalance_seq (s : State) : (rebalance s).seq = s.seq := by unfold rebalance; split <;> [rfl; (split <;> rfl)]
@[simp] theorem rebalance_ramp (s : State) : (rebalance s).ramp = s.ramp := by unfold rebalance; split <;> [rfl; (split <;> rfl)]
@[simp] theorem rebalance_pid (s : State) : (rebalance s).pid = s.pid := by unfold rebalance; split <;> [rfl; (split <;> rfl)]
@[simp] theorem rebalance_flatTop (s : State) : (rebalance s).flatTop = s.flatTop := by unfold rebalance; split <;> [rfl; (split <;> rfl)]
@[simp] theorem rebalance_fbDly (s : State) : (rebalance s).fbDly = s.fbDly := by unfold rebalance; split <;> [rfl; (split <;> rfl)]
@[simp] theorem rebalance_satDet (s : State) : (rebalance s).satDet = s.satDet := by unfold rebalance; split <;> [rfl; (split <;> rfl)]
@[simp] theorem rebalance_safe (s : State) : (rebalance s).safe = s.safe := by unfold rebalance; split <;> [rfl; (split <;> rfl)]
@[simp] theorem rebalance_fbZeroCount (s : State) : (rebalance s).fbZeroCount = s.fbZeroCount := by unfold rebalance; split <;> [rfl; (split <;> rfl)]
@[simp] theorem rebalance_drive (s : State) : (rebalance s).drive = s.drive := by unfold rebalance; split <;> [rfl; (split <;> rfl)]
@[simp] theorem rebalance_flags (s : State) : (rebalance s).flags = s.flags := by unfold rebalance; split <;> [rfl; (split <;> rfl)]
@[simp] theorem rebalance_ovl (s : State) : (rebalance s).ovl = s.ovl := by unfold rebalance; split <;> [rfl; (split <;> rfl)]
@[simp] theorem rebalance_zcChg (s : State) : (rebalance s).zcChg = s.zcChg := by unfold rebalance; split <;> [rfl; (split <;> rfl)]
@[simp] theorem rebalance_zcInv (s : State) : (rebalance s).zcInv = s.zcInv := by unfold rebalance; split <;> [rfl; (split <;> rfl)]
@[simp] theorem rebalance_pulses (s : State) : (rebalance s).pulses = s.pulses := by unfold rebalance; split <;> [rfl; (split <;> rfl)]
@[simp] theorem rebalance_ports (s : State) : (rebalance s).ports = s.ports := by unfold rebalance; split <;> [rfl; (split <;> rfl)]
@[simp] theorem rebalance_busRdata (s : State) : (rebalance s).busRdata = s.busRdata := by unfold rebalance; split <;> [rfl; (split <;> rfl)]
@[simp] theorem rebalance_events (s : State) : (rebalance s).events = s.events := by unfold rebalance; split <;> [rfl; (split <;> rfl)]

@[simp] theorem saturationDetect_cfg (s : State) : (saturationDetect s).cfg = s.cfg := by unfold saturationDetect; split <;> rfl
@[simp] theorem saturationDetect_cmdLatch (s : State) : (saturationDetect s).cmdLatch = s.cmdLatch := by unfold saturationDetect; split <;> rfl
@[simp] theorem saturationDetect_seq (s : State) : (saturationDetect s).seq = s.seq := by unfold saturationDetect; split <;> rfl
@[simp] theorem saturationDetect_ramp (s : State) : (saturationDetect s).ramp = s.ramp := by unfold saturationDetect; split <;> rfl
@[simp] theorem saturationDetect_pid (s : State) : (saturationDetect s).pid = s.pid := by unfold saturationDetect; split <;> rfl
@[simp] theorem saturationDetect_flatTop (s : State) : (saturationDetect s).flatTop = s.flatTop := by unfold saturationDetect; split <;> rfl
@[simp] theorem saturationDetect_fbDly (s : State) : (saturationDetect s).fbDly = s.fbDly := by unfold saturationDetect; split <;> rfl
@[simp] theorem saturationDetect_rebal (s : State) : (saturationDetect s).rebal = s.rebal := by unfold saturationDetect; split <;> rfl
@[simp] theorem saturationDetect_safe (s : State) : (saturationDetect s).safe = s.safe := by unfold saturationDetect; split <;> rfl
@[simp] theorem saturationDetect_fbZeroCount (s : State) : (saturationDetect s).fbZeroCount = s.fbZeroCount := by unfold saturationDetect; split <;> rfl
@[simp] theorem saturationDetect_drive (s : State) : (saturationDetect s).drive = s.drive := by unfold saturationDetect; split <;> rfl
@[simp] theorem saturationDetect_flags (s : State) : (saturationDetect s).flags = s.flags := by unfold saturationDetect; split <;> rfl
@[simp] theorem saturationDetect_ovl (s : State) : (saturationDetect s).ovl = s.ovl := by unfold saturationDetect; split <;> rfl
@[simp] theorem saturationDetect_zcChg (s : State) : (saturationDetect s).zcChg = s.zcChg := by unfold saturationDetect; split <;> rfl
@[simp] theorem saturationDetect_zcInv (s : State) : (saturationDetect s).zcInv = s.zcInv := by unfold saturationDetect; split <;> rfl
@[simp] theorem saturationDetect_pulses (s : State) : (saturationDetect s).pulses = s.pulses := by unfold saturationDetect; split <;> rfl
@[simp] theorem saturationDetect_ports (s : State) : (saturationDetect s).ports = s.ports := by unfold saturationDetect; split <;> rfl
@[simp] theorem saturationDetect_busRdata (s : State) : (saturationDetect s).busRdata = s.busRdata := by unfold saturationDetect; split <;> rfl
@[simp] theorem saturationDetect_events (s : State) : (saturationDetect s).events = s.events := by unfold saturationDetect; split <;> rfl

@[simp] theorem softStartBoundary_cfg (s : State) : (softStartBoundary s).cfg = s.cfg := by unfold softStartBoundary; split <;> rfl
@[simp] theorem softStartBoundary_cmdLatch (s : State) : (softStartBoundary s).cmdLatch = s.cmdLatch := by unfold softStartBoundary; split <;> rfl
@[simp] theorem softStartBoundary_pid (s : State) : (softStartBoundary s).pid = s.pid := by unfold softStartBoundary; split <;> rfl
@[simp] theorem softStartBoundary_flatTop (s : State) : (softStartBoundary s).flatTop = s.flatTop := by unfold softStartBoundary; split <;> rfl
@[simp] theorem softStartBoundary_fbDly (s : State) : (softStartBoundary s).fbDly = s.fbDly := by unfold softStartBoundary; split <;> rfl
@[simp] theorem softStartBoundary_rebal (s : State) : (softStartBoundary s).rebal = s.rebal := by unfold softStartBoundary; split <;> rfl
@[simp] theorem softStartBoundary_satDet (s : State) : (softStartBoundary s).satDet = s.satDet := by unfold softStartBoundary; split <;> rfl
@[simp] theorem softStartBoundary_fbZeroCount (s : State) : (softStartBoundary s).fbZeroCount = s.fbZeroCount := by unfold softStartBoundary; split <;> rfl
@[simp] theorem softStartBoundary_drive (s : State) : (softStartBoundary s).drive = s.drive := by unfold softStartBoundary; split <;> rfl
@[simp] theorem softStartBoundary_flags (s : State) : (softStartBoundary s).flags = s.flags := by unfold softStartBoundary; split <;> rfl
@[simp] theorem softStartBoundary_ovl (s : State) : (softStartBoundary s).ovl = s.ovl := by unfold softStartBoundary; split <;> rfl
@[simp] theorem softStartBoundary_zcChg (s : State) : (softStartBoundary s).zcChg = s.zcChg := by unfold softStartBoundary; split <;> rfl
@[simp] theorem softStartBoundary_zcInv (s : State) : (softStartBoundary s).zcInv = s.zcInv := by unfold softStartBoundary; split <;> rfl
@[simp] theorem softStartBoundary_pulses (s : State) : (softStartBoundary s).pulses = s.pulses := by unfold softStartBoundary; split <;> rfl
@[simp] theorem softStartBoundary_ports (s : State) : (softStartBoundary s).ports = s.ports := by unfold softStartBoundary; split <;> rfl
@[simp] theorem softStartBoundary_busRdata (s : State) : (softStartBoundary s).busRdata = s.busRdata := by unfold softStartBoundary; split <;> rfl
@[simp] theorem softStartBoundary_events (s : State) : (softStartBoundary s).events = s.events := by unfold softStartBoundary; split <;> rfl

@[simp] theorem ovlStart_cfg (s : State) : (ovlStart s).cfg = s.cfg := by unfold ovlStart; split <;> rfl
@[simp] theorem ovlStart_cmdLatch (s : State) : (ovlStart s).cmdLatch = s.cmdLatch := by unfold ovlStart; split <;> rfl
@[simp] theorem ovlStart_seq (s : State) : (ovlStart s).seq = s.seq := by unfold ovlStart; split <;> rfl
@[simp] theorem ovlStart_ramp (s : State) : (ovlStart s).ramp = s.ramp := by unfold ovlStart; split <;> rfl
@[simp] theorem ovlStart_pid (s : State) : (ovlStart s).pid = s.pid := by unfold ovlStart; split <;> rfl
@[simp] theorem ovlStart_flatTop (s : State) : (ovlStart s).flatTop = s.flatTop := by unfold ovlStart; split <;> rfl
@[simp] theorem ovlStart_fbDly (s : State) : (ovlStart s).fbDly = s.fbDly := by unfold ovlStart; split <;> rfl
@[simp] theorem ovlStart_rebal (s : State) : (ovlStart s).rebal = s.rebal := by unfold ovlStart; split <;> rfl
@[simp] theorem ovlStart_satDet (s : State) : (ovlStart s).satDet = s.satDet := by unfold ovlStart; split <;> rfl
@[simp] theorem ovlStart_safe (s : State) : (ovlStart s).safe = s.safe := by unfold ovlStart; split <;> rfl
@[simp] theorem ovlStart_fbZeroCount (s : State) : (ovlStart s).fbZeroCount = s.fbZeroCount := by unfold ovlStart; split <;> rfl
@[simp] theorem ovlStart_drive (s : State) : (ovlStart s).drive = s.drive := by unfold ovlStart; split <;> rfl
@[simp] theorem ovlStart_flags (s : State) : (ovlStart s).flags = s.flags := by unfold ovlStart; split <;> rfl
@[simp] theorem ovlStart_zcChg (s : State) : (ovlStart s).zcChg = s.zcChg := by unfold ovlStart; split <;> rfl
@[simp] theorem ovlStart_zcInv (s : State) : (ovlStart s).zcInv = s.zcInv := by unfold ovlStart; split <;> rfl
@[simp] theorem ovlStart_pulses (s : State) : (ovlStart s).pulses = s.pulses := by unfold ovlStart; split <;> rfl
@[simp] theorem ovlStart_ports (s : State) : (ovlStart s).ports = s.ports := by unfold ovlStart; split <;> rfl
@[simp] theorem ovlStart_busRdata (s : State) : (ovlStart s).busRdata = s.busRdata := by unfold ovlStart; split <;> rfl
@[simp] theorem ovlStart_events (s : State) : (ovlStart s).events = s.events := by unfold ovlStart; split <;> rfl

@[simp] theorem ovlLoose_cfg (s : State) : (ovlLoose s).cfg = s.cfg := by unfold ovlLoose; split <;> [rfl; (split <;> rfl)]
@[simp] theorem ovlLoose_cmdLatch (s : State) : (ovlLoose s).cmdLatch = s.cmdLatch := by unfold ovlLoose; split <;> [rfl; (split <;> rfl)]
@[simp] theorem ovlLoose_seq (s : State) : (ovlLoose s).seq = s.seq := by unfold ovlLoose; split <;> [rfl; (split <;> rfl)]
@[simp] theorem ovlLoose_ramp (s : State) : (ovlLoose s).ramp = s.ramp := by unfold ovlLoose; split <;> [rfl; (split <;> rfl)]
@[simp] theorem ovlLoose_pid (s : State) : (ovlLoose s).pid = s.pid := by unfold ovlLoose; split <;> [rfl; (split <;> rfl)]
@[simp] theorem ovlLoose_flatTop (s : State) : (ovlLoose s).flatTop = s.flatTop := by unfold ovlLoose; split <;> [rfl; (split <;> rfl)]
@[simp] theorem ovlLoose_fbDly (s : State) : (ovlLoose s).fbDly = s.fbDly := by unfold ovlLoose; split <;> [rfl; (split <;> rfl)]
@[simp] theorem ovlLoose_rebal (s : State) : (ovlLoose s).rebal = s.rebal := by unfold ovlLoose; split <;> [rfl; (split <;> rfl)]
@[simp] theorem ovlLoose_satDet (s : State) : (ovlLoose s).satDet = s.satDet := by unfold ovlLoose; split <;> [rfl; (split <;> rfl)]
@[simp] theorem ovlLoose_safe (s : State) : (ovlLoose s).safe = s.safe := by unfold ovlLoose; split <;> [rfl; (split <;> rfl)]
@[simp] theorem ovlLoose_fbZeroCount (s : State) : (ovlLoose s).fbZeroCount = s.fbZeroCount := by unfold ovlLoose; split <;> [rfl; (split <;> rfl)]
@[simp] theorem ovlLoose_drive (s : State) : (ovlLoose s).drive = s.drive := by unfold ovlLoose; split <;> [rfl; (split <;> rfl)]
@[simp] theorem ovlLoose_flags (s : State) : (ovlLoose s).flags = s.flags := by unfold ovlLoose; split <;> [rfl; (split <;> rfl)]
@[simp] theorem ovlLoose_zcChg (s : State) : (ovlLoose s).zcChg = s.zcChg := by unfold ovlLoose; split <;> [rfl; (split <;> rfl)]
@[simp] theorem ovlLoose_zcInv (s : State) : (ovlLoose s).zcInv = s.zcInv := by unfold ovlLoose; split <;> [rfl; (split <;> rfl)]
@[simp] theorem ovlLoose_pulses (s : State) : (ovlLoose s).pulses = s.pulses := by unfold ovlLoose; split <;> [rfl; (split <;> rfl)]
@[simp] theorem ovlLoose_ports (s : State) : (ovlLoose s).ports = s.ports := by unfold ovlLoose; split <;> [rfl; (split <;> rfl)]
@[simp] theorem ovlLoose_busRdata (s : State) : (ovlLoose s).busRdata = s.busRdata := by unfold ovlLoose; split <;> [rfl; (split <;> rfl)]
@[simp] theorem ovlLoose_events (s : State) : (ovlLoose s).events = s.events := by unfold ovlLoose; split <;> [rfl; (split <;> rfl)]

@[simp] theorem ovlTight_cfg (s : State) : (ovlTight s).cfg = s.cfg := by unfold ovlTight raiseFault; split <;> [rfl; (split <;> rfl)]
@[simp] theorem ovlTight_cmdLatch (s : State) : (ovlTight s).cmdLatch = s.cmdLatch := by unfold ovlTight raiseFault; split <;> [rfl; (split <;> rfl)]
@[simp] theorem ovlTight_seq (s : State) : (ovlTight s).seq = s.seq := by unfold ovlTight raiseFault; split <;> [rfl; (split <;> rfl)]
@[simp] theorem ovlTight_ramp (s : State) : (ovlTight s).ramp = s.ramp := by unfold ovlTight raiseFault; split <;> [rfl; (split <;> rfl)]
@[simp] theorem ovlTight_pid (s : State) : (ovlTight s).pid = s.pid := by unfold ovlTight raiseFault; split <;> [rfl; (split <;> rfl)]
@[simp] theorem ovlTight_flatTop (s : State) : (ovlTight s).flatTop = s.flatTop := by unfold ovlTight raiseFault; split <;> [rfl; (split <;> rfl)]
@[simp] theorem ovlTight_fbDly (s : State) : (ovlTight s).fbDly = s.fbDly := by unfold ovlTight raiseFault; split <;> [rfl; (split <;> rfl)]
@[simp] theorem ovlTight_rebal (s : State) : (ovlTight s).rebal = s.rebal := by unfold ovlTight raiseFault; split <;> [rfl; (split <;> rfl)]
@[simp] theorem ovlTight_satDet (s : State) : (ovlTight s).satDet = s.satDet := by unfold ovlTight raiseFault; split <;> [rfl; (split <;> rfl)]
@[simp] theorem ovlTight_safe (s : State) : (ovlTight s).safe = s.safe := by unfold ovlTight raiseFault; split <;> [rfl; (split <;> rfl)]
@[simp] theorem ovlTight_fbZeroCount (s : State) : (ovlTight s).fbZeroCount = s.fbZeroCount := by unfold ovlTight raiseFault; split <;> [rfl; (split <;> rfl)]
@[simp] theorem ovlTight_drive (s : State) : (ovlTight s).drive = s.drive := by unfold ovlTight raiseFault; split <;> [rfl; (split <;> rfl)]
@[simp] theorem ovlTight_flags (s : State) : (ovlTight s).flags = s.flags := by unfold ovlTight raiseFault; split <;> [rfl; (split <;> rfl)]
@[simp] theorem ovlTight_zcChg (s : State) : (ovlTight s).zcChg = s.zcChg := by unfold ovlTight raiseFault; split <;> [rfl; (split <;> rfl)]
@[simp] theorem ovlTight_zcInv (s : State) : (ovlTight s).zcInv = s.zcInv := by unfold ovlTight raiseFault; split <;> [rfl; (split <;> rfl)]
@[simp] theorem ovlTight_pulses (s : State) : (ovlTight s).pulses = s.pulses := by unfold ovlTight raiseFault; split <;> [rfl; (split <;> rfl)]
@[simp] theorem ovlTight_ports (s : State) : (ovlTight s).ports = s.ports := by unfold ovlTight raiseFault; split <;> [rfl; (split <;> rfl)]
@[simp] theorem ovlTight_busRdata (s : State) : (ovlTight s).busRdata = s.busRdata := by unfold ovlTight raiseFault; split <;> [rfl; (split <;> rfl)]
@[simp] theorem ovlTight_events (s : State) : (ovlTight s).events = s.events := by unfold ovlTight raiseFault; split <;> [rfl; (split <;> rfl)]

@[simp] theorem zcTask_cfg (s : State) : (zcTask s).cfg = s.cfg := by unfold zcTask; split <;> (try split) <;> simp
@[simp] theorem zcTask_cmdLatch (s : State) : (zcTask s).cmdLatch = s.cmdLatch := by unfold zcTask; split <;> (try split) <;> simp
@[simp] theorem zcTask_seq (s : State) : (zcTask s).seq = s.seq := by unfold zcTask; split <;> (try split) <;> simp
@[simp] theorem zcTask_ramp (s : State) : (zcTask s).ramp = s.ramp := by unfold zcTask; split <;> (try split) <;> simp
@[simp] theorem zcTask_pid (s : State) : (zcTask s).pid = s.pid := by unfold zcTask; split <;> (try split) <;> simp
@[simp] theorem zcTask_flatTop (s : State) : (zcTask s).flatTop = s.flatTop := by unfold zcTask; split <;> (try split) <;> simp
@[simp] theorem zcTask_fbDly (s : State) : (zcTask s).fbDly = s.fbDly := by unfold zcTask; split <;> (try split) <;> simp
@[simp] theorem zcTask_rebal (s : State) : (zcTask s).rebal = s.rebal := by unfold zcTask; split <;> (try split) <;> simp
@[simp] theorem zcTask_satDet (s : State) : (zcTask s).satDet = s.satDet := by unfold zcTask; split <;> (try split) <;> simp
@[simp] theorem zcTask_safe (s : State) : (zcTask s).safe = s.safe := by unfold zcTask; split <;> (try split) <;> simp
@[simp] theorem zcTask_fbZeroCount (s : State) : (zcTask s).fbZeroCount = s.fbZeroCount := by unfold zcTask; split <;> (try split) <;> simp
@[simp] theorem zcTask_drive (s : State) : (zcTask s).drive = s.drive := by unfold zcTask; split <;> (try split) <;> simp
@[simp] theorem zcTask_flags (s : State) : (zcTask s).flags = s.flags := by unfold zcTask; split <;> (try split) <;> simp
@[simp] theorem zcTask_zcChg (s : State) : (zcTask s).zcChg = s.zcChg := by unfold zcTask; split <;> (try split) <;> simp
@[simp] theorem zcTask_zcInv (s : State) : (zcTask s).zcInv = s.zcInv := by unfold zcTask; split <;> (try split) <;> simp
@[simp] theorem zcTask_pulses (s : State) : (zcTask s).pulses = s.pulses := by unfold zcTask; split <;> (try split) <;> simp
@[simp] theorem zcTask_ports (s : State) : (zcTask s).ports = s.ports := by unfold zcTask; split <;> (try split) <;> simp
@[simp] theorem zcTask_busRdata (s : State) : (zcTask s).busRdata = s.busRdata := by unfold zcTask; split <;> (try split) <;> simp
@[simp] theorem zcTask_events (s : State) : (zcTask s).events = s.events := by unfold zcTask; split <;> (try split) <;> simp

@[simp] theorem sampleTick_cfg (s : State) : (sampleTick s).cfg = s.cfg := by unfold sampleTick raiseFault; split <;> rfl
@[simp] theorem sampleTick_cmdLatch (s : State) : (sampleTick s).cmdLatch = s.cmdLatch := by unfold sampleTick raiseFault; split <;> rfl
@[simp] theorem sampleTick_seq (s : State) : (sampleTick s).seq = s.seq := by unfold sampleTick raiseFault; split <;> rfl
@[simp] theorem sampleTick_ramp (s : State) : (sampleTick s).ramp = s.ramp := by unfold sampleTick raiseFault; split <;> rfl
@[simp] theorem sampleTick_pid (s : State) : (sampleTick s).pid = s.pid := by unfold sampleTick raiseFault; split <;> rfl
@[simp] theorem sampleTick_flatTop (s : State) : (sampleTick s).flatTop = s.flatTop := by unfold sampleTick raiseFault; split <;> rfl
@[simp] theorem sampleTick_fbDly (s : State) : (sampleTick s).fbDly = s.fbDly := by unfold sampleTick raiseFault; split <;> rfl
@[simp] theorem sampleTick_rebal (s : State) : (sampleTick s).rebal = s.rebal := by unfold sampleTick raiseFault; split <;> rfl
@[simp] theorem sampleTick_satDet (s : State) : (sampleTick s).satDet = s.satDet := by unfold sampleTick raiseFault; split <;> rfl
@[simp] theorem sampleTick_safe (s : State) : (sampleTick s).safe = s.safe := by unfold sampleTick raiseFault; split <;> rfl
@[simp] theorem sampleTick_fbZeroCount (s : State) : (sampleTick s).fbZeroCount = s.fbZeroCount := by unfold sampleTick raiseFault; split <;> rfl
@[simp] theorem sampleTick_flags (s : State) : (sampleTick s).flags = s.flags := by unfold sampleTick raiseFault; split <;> rfl
@[simp] theorem sampleTick_zcChg (s : State) : (sampleTick s).zcChg = s.zcChg := by unfold sampleTick raiseFault; split <;> rfl
@[simp] theorem sampleTick_zcInv (s : State) : (sampleTick s).zcInv = s.zcInv := by unfold sampleTick raiseFault; split <;> rfl
@[simp] theorem sampleTick_pulses (s : State) : (sampleTick s).pulses = s.pulses := by unfold sampleTick raiseFault; split <;> rfl
@[simp] theorem sampleTick_ports (s : State) : (sampleTick s).ports = s.ports := by unfold sampleTick raiseFault; split <;> rfl
@[simp] theorem sampleTick_busRdata (s : State) : (sampleTick s).busRdata = s.busRdata := by unfold sampleTick raiseFault; split <;> rfl
@[simp] theorem sampleTick_events (s : State) : (sampleTick s).events = s.events := by unfold sampleTick raiseFault; split <;> rfl

/-! ### The parts of a tick -/

@[simp] theorem peakTests_cfg (f : S17) (s : State) :
    (peakTests f s).cfg = s.cfg := by unfold peakTests; split <;> (try split) <;> simp
@[simp] theorem peakTests_cmdLatch (f : S17) (s : State) :
    (peakTests f s).cmdLatch = s.cmdLatch := by unfold peakTests; split <;> (try split) <;> simp
@[simp] theorem peakTests_ramp (f : S17) (s : State) :
    (peakTests f s).ramp = s.ramp := by unfold peakTests; split <;> (try split) <;> simp
@[simp] theorem peakTests_pid (f : S17) (s : State) :
    (peakTests f s).pid = s.pid := by unfold peakTests; split <;> (try split) <;> simp
@[simp] theorem peakTests_flatTop (f : S17) (s : State) :
    (peakTests f s).flatTop = s.flatTop := by unfold peakTests; split <;> (try split) <;> simp
@[simp] theorem peakTests_fbDly (f : S17) (s : State) :
    (peakTests f s).fbDly = s.fbDly := by unfold peakTests; split <;> (try split) <;> simp
@[simp] theorem peakTests_rebal (f : S17) (s : State) :
    (peakTests f s).rebal = s.rebal := by unfold peakTests; split <;> (try split) <;> simp
@[simp] theorem peakTests_satDet (f : S17) (s : State) :
    (peakTests f s).satDet = s.satDet := by unfold peakTests; split <;> (try split) <;> simp
@[simp] theorem peakTests_safe (f : S17) (s : State) :
    (peakTests f s).safe = s.safe := by unfold peakTests; split <;> (try split) <;> simp
@[simp] theorem peakTests_drive (f : S17) (s : State) :
    (peakTests f s).drive = s.drive := by unfold peakTests; split <;> (try split) <;> simp
@[simp] theorem peakTests_ovl (f : S17) (s : State) :
    (peakTests f s).ovl = s.ovl := by unfold peakTests; split <;> (try split) <;> simp
@[simp] theorem peakTests_zcChg (f : S17) (s : State) :
    (peakTests f s).zcChg = s.zcChg := by unfold peakTests; split <;> (try split) <;> simp
@[simp] theorem peakTests_zcInv (f : S17) (s : State) :
    (peakTests f s).zcInv = s.zcInv := by unfold peakTests; split <;> (try split) <;> simp
@[simp] theorem peakTests_pulses (f : S17) (s : State) :
    (peakTests f s).pulses = s.pulses := by unfold peakTests; split <;> (try split) <;> simp
@[simp] theorem peakTests_ports (f : S17) (s : State) :
    (peakTests f s).ports = s.ports := by unfold peakTests; split <;> (try split) <;> simp
@[simp] theorem peakTests_busRdata (f : S17) (s : State) :
    (peakTests f s).busRdata = s.busRdata := by unfold peakTests; split <;> (try split) <;> simp
@[simp] theorem peakTests_events (f : S17) (s : State) :
    (peakTests f s).events = s.events := by unfold peakTests; split <;> (try split) <;> simp

@[simp] theorem normalDuty_cfg (t : U32) (b : Nat) (f : S17) (s : State) :
    (normalDuty t b f s).1.cfg = s.cfg := by unfold normalDuty; simp
@[simp] theorem normalDuty_cmdLatch (t : U32) (b : Nat) (f : S17) (s : State) :
    (normalDuty t b f s).1.cmdLatch = s.cmdLatch := by unfold normalDuty; simp
@[simp] theorem normalDuty_seq (t : U32) (b : Nat) (f : S17) (s : State) :
    (normalDuty t b f s).1.seq = s.seq := by unfold normalDuty; simp
@[simp] theorem normalDuty_ramp (t : U32) (b : Nat) (f : S17) (s : State) :
    (normalDuty t b f s).1.ramp = s.ramp := by unfold normalDuty; simp
@[simp] theorem normalDuty_fbDly (t : U32) (b : Nat) (f : S17) (s : State) :
    (normalDuty t b f s).1.fbDly = s.fbDly := by unfold normalDuty; simp
@[simp] theorem normalDuty_rebal (t : U32) (b : Nat) (f : S17) (s : State) :
    (normalDuty t b f s).1.rebal = s.rebal := by unfold normalDuty; simp
@[simp] theorem normalDuty_satDet (t : U32) (b : Nat) (f : S17) (s : State) :
    (normalDuty t b f s).1.satDet = s.satDet := by unfold normalDuty; simp
@[simp] theorem normalDuty_safe (t : U32) (b : Nat) (f : S17) (s : State) :
    (normalDuty t b f s).1.safe = s.safe := by unfold normalDuty; simp
@[simp] theorem normalDuty_fbZeroCount (t : U32) (b : Nat) (f : S17) (s : State) :
    (normalDuty t b f s).1.fbZeroCount = s.fbZeroCount := by unfold normalDuty; simp
@[simp] theorem normalDuty_drive (t : U32) (b : Nat) (f : S17) (s : State) :
    (normalDuty t b f s).1.drive = s.drive := by unfold normalDuty; simp
@[simp] theorem normalDuty_flags (t : U32) (b : Nat) (f : S17) (s : State) :
    (normalDuty t b f s).1.flags = s.flags := by unfold normalDuty; simp
@[simp] theorem normalDuty_ovl (t : U32) (b : Nat) (f : S17) (s : State) :
    (normalDuty t b f s).1.ovl = s.ovl := by unfold normalDuty; simp
@[simp] theorem normalDuty_zcChg (t : U32) (b : Nat) (f : S17) (s : State) :
    (normalDuty t b f s).1.zcChg = s.zcChg := by unfold normalDuty; simp
@[simp] theorem normalDuty_zcInv (t : U32) (b : Nat) (f : S17) (s : State) :
    (normalDuty t b f s).1.zcInv = s.zcInv := by unfold normalDuty; simp
@[simp] theorem normalDuty_pulses (t : U32) (b : Nat) (f : S17) (s : State) :
    (normalDuty t b f s).1.pulses = s.pulses := by unfold normalDuty; simp
@[simp] theorem normalDuty_ports (t : U32) (b : Nat) (f : S17) (s : State) :
    (normalDuty t b f s).1.ports = s.ports := by unfold normalDuty; simp
@[simp] theorem normalDuty_busRdata (t : U32) (b : Nat) (f : S17) (s : State) :
    (normalDuty t b f s).1.busRdata = s.busRdata := by unfold normalDuty; simp
@[simp] theorem normalDuty_events (t : U32) (b : Nat) (f : S17) (s : State) :
    (normalDuty t b f s).1.events = s.events := by unfold normalDuty; simp

@[simp] theorem tickDuty_cfg (t : U32) (b : Nat) (f : S17) (s : State) :
    (tickDuty t b f s).1.cfg = s.cfg := by unfold tickDuty; split <;> simp
@[simp] theorem tickDuty_cmdLatch (t : U32) (b : Nat) (f : S17) (s : State) :
    (tickDuty t b f s).1.cmdLatch = s.cmdLatch := by unfold tickDuty; split <;> simp
@[simp] theorem tickDuty_seq (t : U32) (b : Nat) (f : S17) (s : State) :
    (tickDuty t b f s).1.seq = s.seq := by unfold tickDuty; split <;> simp
@[simp] theorem tickDuty_ramp (t : U32) (b : Nat) (f : S17) (s : State) :
    (tickDuty t b f s).1.ramp = s.ramp := by unfold tickDuty; split <;> simp
@[simp] theorem tickDuty_fbDly (t : U32) (b : Nat) (f : S17) (s : State) :
    (tickDuty t b f s).1.fbDly = s.fbDly := by unfold tickDuty; split <;> simp
@[simp] theorem tickDuty_rebal (t : U32) (b : Nat) (f : S17) (s : State) :
    (tickDuty t b f s).1.rebal = s.rebal := by unfold tickDuty; split <;> simp
@[simp] theorem tickDuty_satDet (t : U32) (b : Nat) (f : S17) (s : State) :
    (tickDuty t b f s).1.satDet = s.satDet := by unfold tickDuty; split <;> simp
@[simp] theorem tickDuty_safe (t : U32) (b : Nat) (f : S17) (s : State) :
    (tickDuty t b f s).1.safe = s.safe := by unfold tickDuty; split <;> simp
@[simp] theorem tickDuty_fbZeroCount (t : U32) (b : Nat) (f : S17) (s : State) :
    (tickDuty t b f s).1.fbZeroCount = s.fbZeroCount := by unfold tickDuty; split <;> simp
@[simp] theorem tickDuty_drive (t : U32) (b : Nat) (f : S17) (s : State) :
    (tickDuty t b f s).1.drive = s.drive := by unfold tickDuty; split <;> simp
@[simp] theorem tickDuty_flags (t : U32) (b : Nat) (f : S17) (s : State) :
    (tickDuty t b f s).1.flags = s.flags := by unfold tickDuty; split <;> simp
@[simp] theorem tickDuty_ovl (t : U32) (b : Nat) (f : S17) (s : State) :
    (tickDuty t b f s).1.ovl = s.ovl := by unfold tickDuty; split <;> simp
@[simp] theorem tickDuty_zcChg (t : U32) (b : Nat) (f : S17) (s : State) :
    (tickDuty t b f s).1.zcChg = s.zcChg := by unfold tickDuty; split <;> simp
@[simp] theorem tickDuty_zcInv (t : U32) (b : Nat) (f : S17) (s : State) :
    (tickDuty t b f s).1.zcInv = s.zcInv := by unfold tickDuty; split <;> simp
@[simp] theorem tickDuty_pulses (t : U32) (b : Nat) (f : S17) (s : State) :
    (tickDuty t b f s).1.pulses = s.pulses := by unfold tickDuty; split <;> simp
@[simp] theorem tickDuty_ports (t : U32) (b : Nat) (f : S17) (s : State) :
    (tickDuty t b f s).1.ports = s.ports := by unfold tickDuty; split <;> simp
@[simp] theorem tickDuty_busRdata (t : U32) (b : Nat) (f : S17) (s : State) :
    (tickDuty t b f s).1.busRdata = s.busRdata := by unfold tickDuty; split <;> simp
@[simp] theorem tickDuty_events (t : U32) (b : Nat) (f : S17) (s : State) :
    (tickDuty t b f s).1.events = s.events := by unfold tickDuty; split <;> simp

@[simp] theorem fullCycleActions_cfg (b : Bool) (s : State) :
    (fullCycleActions b s).cfg = s.cfg := by unfold fullCycleActions; simp only []; split_ifs <;> simp
@[simp] theorem fullCycleActions_cmdLatch (b : Bool) (s : State) :
    (fullCycleActions b s).cmdLatch = s.cmdLatch := by unfold fullCycleActions; simp only []; split_ifs <;> simp
@[simp] theorem fullCycleActions_seq (b : Bool) (s : State) :
    (fullCycleActions b s).seq = s.seq := by unfold fullCycleActions; simp only []; split_ifs <;> simp
@[simp] theorem fullCycleActions_ramp (b : Bool) (s : State) :
    (fullCycleActions b s).ramp = s.ramp := by unfold fullCycleActions; simp only []; split_ifs <;> simp
@[simp] theorem fullCycleActions_pid (b : Bool) (s : State) :
    (fullCycleActions b s).pid = s.pid := by unfold fullCycleActions; simp only []; split_ifs <;> simp
@[simp] theorem fullCycleActions_flatTop (b : Bool) (s : State) :
    (fullCycleActions b s).flatTop = s.flatTop := by unfold fullCycleActions; simp only []; split_ifs <;> simp
@[simp] theorem fullCycleActions_fbDly (b : Bool) (s : State) :
    (fullCycleActions b s).fbDly = s.fbDly := by unfold fullCycleActions; simp only []; split_ifs <;> simp
@[simp] theorem fullCycleActions_fbZeroCount (b : Bool) (s : State) :
    (fullCycleActions b s).fbZeroCount = s.fbZeroCount := by unfold fullCycleActions; simp only []; split_ifs <;> simp
@[simp] theorem fullCycleActions_drive (b : Bool) (s : State) :
    (fullCycleActions b s).drive = s.drive := by unfold fullCycleActions; simp only []; split_ifs <;> simp
@[simp] theorem fullCycleActions_flags (b : Bool) (s : State) :
    (fullCycleActions b s).flags = s.flags := by unfold fullCycleActions; simp only []; split_ifs <;> simp
@[simp] theorem fullCycleActions_ovl (b : Bool) (s : State) :
    (fullCycleActions b s).ovl = s.ovl := by unfold fullCycleActions; simp only []; split_ifs <;> simp
@[simp] theorem fullCycleActions_zcChg (b : Bool) (s : State) :
    (fullCycleActions b s).zcChg = s.zcChg := by unfold fullCycleActions; simp only []; split_ifs <;> simp
@[simp] theorem fullCycleActions_zcInv (b : Bool) (s : State) :
    (fullCycleActions b s).zcInv = s.zcInv := by unfold fullCycleActions; simp only []; split_ifs <;> simp
@[simp] theorem fullCycleActions_pulses (b : Bool) (s : State) :
    (fullCycleActions b s).pulses = s.pulses := by unfold fullCycleActions; simp only []; split_ifs <;> simp
@[simp] theorem fullCycleActions_ports (b : Bool) (s : State) :
    (fullCycleActions b s).ports = s.ports := by unfold fullCycleActions; simp only []; split_ifs <;> simp
@[simp] theorem fullCycleActions_busRdata (b : Bool) (s : State) :
    (fullCycleActions b s).busRdata = s.busRdata := by unfold fullCycleActions; simp only []; split_ifs <;> simp
@[simp] theorem fullCycleActions_events (b : Bool) (s : State) :
    (fullCycleActions b s).events = s.events := by unfold fullCycleActions; simp only []; split_ifs <;> simp

@[simp] theorem closeCycle_cfg (b : Bool) (s : State) :
    (closeCycle b s).cfg = s.cfg := by unfold closeCycle; split <;> (try split) <;> simp
@[simp] theorem closeCycle_cmdLatch (b : Bool) (s : State) :
    (closeCycle b s).cmdLatch = s.cmdLatch := by unfold closeCycle; split <;> (try split) <;> simp
@[simp] theorem closeCycle_seq (b : Bool) (s : State) :
    (closeCycle b s).seq = s.seq := by unfold closeCycle; split <;> (try split) <;> simp
@[simp] theorem closeCycle_ramp (b : Bool) (s : State) :
    (closeCycle b s).ramp = s.ramp := by unfold closeCycle; split <;> (try split) <;> simp
@[simp] theorem closeCycle_pid (b : Bool) (s : State) :
    (closeCycle b s).pid = s.pid := by unfold closeCycle; split <;> (try split) <;> simp
@[simp] theorem closeCycle_flatTop (b : Bool) (s : State) :
    (closeCycle b s).flatTop = s.flatTop := by unfold closeCycle; split <;> (try split) <;> simp
@[simp] theorem closeCycle_fbDly (b : Bool) (s : State) :
    (closeCycle b s).fbDly = s.fbDly := by unfold closeCycle; split <;> (try split) <;> simp
@[simp] theorem closeCycle_fbZeroCount (b : Bool) (s : State) :
    (closeCycle b s).fbZeroCount = s.fbZeroCount := by unfold closeCycle; split <;> (try split) <;> simp
@[simp] theorem closeCycle_drive (b : Bool) (s : State) :
    (closeCycle b s).drive = s.drive := by unfold closeCycle; split <;> (try split) <;> simp
@[simp] theorem closeCycle_flags (b : Bool) (s : State) :
    (closeCycle b s).flags = s.flags := by unfold closeCycle; split <;> (try split) <;> simp
@[simp] theorem closeCycle_ovl (b : Bool) (s : State) :
    (closeCycle b s).ovl = s.ovl := by unfold closeCycle; split <;> (try split) <;> simp
@[simp] theorem closeCycle_zcChg (b : Bool) (s : State) :
    (closeCycle b s).zcChg = s.zcChg := by unfold closeCycle; split <;> (try split) <;> simp
@[simp] theorem closeCycle_zcInv (b : Bool) (s : State) :
    (closeCycle b s).zcInv = s.zcInv := by unfold closeCycle; split <;> (try split) <;> simp
@[simp] theorem closeCycle_ports (b : Bool) (s : State) :
    (closeCycle b s).ports = s.ports := by unfold closeCycle; split <;> (try split) <;> simp
@[simp] theorem closeCycle_busRdata (b : Bool) (s : State) :
    (closeCycle b s).busRdata = s.busRdata := by unfold closeCycle; split <;> (try split) <;> simp
@[simp] theorem closeCycle_events (b : Bool) (s : State) :
    (closeCycle b s).events = s.events := by unfold closeCycle; split <;> (try split) <;> simp

@[simp] theorem pingBoundary_cfg (s : State) :
    (pingBoundary s).cfg = s.cfg := by unfold pingBoundary; simp only []; split_ifs <;> simp
@[simp] theorem pingBoundary_cmdLatch (s : State) :
    (pingBoundary s).cmdLatch = s.cmdLatch := by unfold pingBoundary; simp only []; split_ifs <;> simp
@[simp] theorem pingBoundary_flags (s : State) :
    (pingBoundary s).flags = s.flags := by unfold pingBoundary; simp only []; split_ifs <;> simp
@[simp] theorem pingBoundary_ovl (s : State) :
    (pingBoundary s).ovl = s.ovl := by unfold pingBoundary; simp only []; split_ifs <;> simp
@[simp] theorem pingBoundary_zcChg (s : State) :
    (pingBoundary s).zcChg = s.zcChg := by unfold pingBoundary; simp only []; split_ifs <;> simp
@[simp] theorem pingBoundary_zcInv (s : State) :
    (pingBoundary s).zcInv = s.zcInv := by unfold pingBoundary; simp only []; split_ifs <;> simp
@[simp] theorem pingBoundary_ports (s : State) :
    (pingBoundary s).ports = s.ports := by unfold pingBoundary; simp only []; split_ifs <;> simp
@[simp] theorem pingBoundary_busRdata (s : State) :
    (pingBoundary s).busRdata = s.busRdata := by unfold pingBoundary; simp only []; split_ifs <;> simp
@[simp] theorem pingBoundary_events (s : State) :
    (pingBoundary s).events = s.events := by unfold pingBoundary; simp only []; split_ifs <;> simp

@[simp] theorem softStopBoundary_cfg (s : State) :
    (softStopBoundary s).cfg = s.cfg := by unfold softStopBoundary; split <;> simp
@[simp] theorem softStopBoundary_cmdLatch (s : State) :
    (softStopBoundary s).cmdLatch = s.cmdLatch := by unfold softStopBoundary; split <;> simp
@[simp] theorem softStopBoundary_flags (s : State) :
    (softStopBoundary s).flags = s.flags := by unfold softStopBoundary; split <;> simp
@[simp] theorem softStopBoundary_ovl (s : State) :
    (softStopBoundary s).ovl = s.ovl := by unfold softStopBoundary; split <;> simp
@[simp] theorem softStopBoundary_zcChg (s : State) :
    (softStopBoundary s).zcChg = s.zcChg := by unfold softStopBoundary; split <;> simp
@[simp] theorem softStopBoundary_zcInv (s : State) :
    (softStopBoundary s).zcInv = s.zcInv := by unfold softStopBoundary; split <;> simp
@[simp] theorem softStopBoundary_ports (s : State) :
    (softStopBoundary s).ports = s.ports := by unfold softStopBoundary; split <;> simp
@[simp] theorem softStopBoundary_busRdata (s : State) :
    (softStopBoundary s).busRdata = s.busRdata := by unfold softStopBoundary; split <;> simp
@[simp] theorem softStopBoundary_events (s : State) :
    (softStopBoundary s).events = s.events := by unfold softStopBoundary; split <;> simp

@[simp] theorem boundary_cfg (s : State) :
    (boundary s).cfg = s.cfg := by unfold boundary; split <;> simp
@[simp] theorem boundary_cmdLatch (s : State) :
    (boundary s).cmdLatch = s.cmdLatch := by unfold boundary; split <;> simp
@[simp] theorem boundary_flags (s : State) :
    (boundary s).flags = s.flags := by unfold boundary; split <;> simp
@[simp] theorem boundary_ovl (s : State) :
    (boundary s).ovl = s.ovl := by unfold boundary; split <;> simp
@[simp] theorem boundary_zcChg (s : State) :
    (boundary s).zcChg = s.zcChg := by unfold boundary; split <;> simp
@[simp] theorem boundary_zcInv (s : State) :
    (boundary s).zcInv = s.zcInv := by unfold boundary; split <;> simp
@[simp] theorem boundary_ports (s : State) :
    (boundary s).ports = s.ports := by unfold boundary; split <;> simp
@[simp] theorem boundary_busRdata (s : State) :
    (boundary s).busRdata = s.busRdata := by unfold boundary; split <;> simp
@[simp] theorem boundary_events (s : State) :
    (boundary s).events = s.events := by unfold boundary; split <;> simp

@[simp] theorem advance_cfg (s : State) :
    (advance s).cfg = s.cfg := by unfold advance; split <;> simp
@[simp] theorem advance_cmdLatch (s : State) :
    (advance s).cmdLatch = s.cmdLatch := by unfold advance; split <;> simp
@[simp] theorem advance_flags (s : State) :
    (advance s).flags = s.flags := by unfold advance; split <;> simp
@[simp] theorem advance_ovl (s : State) :
    (advance s).ovl = s.ovl := by unfold advance; split <;> simp
@[simp] theorem advance_zcChg (s : State) :
    (advance s).zcChg = s.zcChg := by unfold advance; split <;> simp
@[simp] theorem advance_zcInv (s : State) :
    (advance s).zcInv = s.zcInv := by unfold advance; split <;> simp
@[simp] theorem advance_ports (s : State) :
    (advance s).ports = s.ports := by unfold advance; split <;> simp
@[simp] theorem advance_busRdata (s : State) :
    (advance s).busRdata = s.busRdata := by unfold advance; split <;> simp
@[simp] theorem advance_events (s : State) :
    (advance s).events = s.events := by unfold advance; split <;> simp

@[simp] theorem activeTick_cfg (t : U32) (s : State) :
    (activeTick t s).cfg = s.cfg := by unfold activeTick; simp
@[simp] theorem activeTick_cmdLatch (t : U32) (s : State) :
    (activeTick t s).cmdLatch = s.cmdLatch := by unfold activeTick; simp
@[simp] theorem activeTick_zcChg (t : U32) (s : State) :
    (activeTick t s).zcChg = s.zcChg := by unfold activeTick; simp
@[simp] theorem activeTick_zcInv (t : U32) (s : State) :
    (activeTick t s).zcInv = s.zcInv := by unfold activeTick; simp
@[simp] theorem activeTick_ports (t : U32) (s : State) :
    (activeTick t s).ports = s.ports := by unfold activeTick; simp
@[simp] theorem activeTick_busRdata (t : U32) (s : State) :
    (activeTick t s).busRdata = s.busRdata := by unfold activeTick; simp
@[simp] theorem activeTick_events (t : U32) (s : State) :
    (activeTick t s).events = s.events := by unfold activeTick; simp


end Sys2Proof.Laws
end

