-- ==== Sys2Proof/Laws/Ops.lean ====
section
/-! SUPPORT. One lemma per shared operation of Machine/Ops.lean and per part of a tick in
Machine/Engine.lean: everything it can do, for the proofs to cite instead of unfolding it. -/

namespace Sys2Proof.Laws

open Sys2Proof Sys2Proof.Machine

/-! ### The parameter record -/

theorem meets_of_valid {c : Cfg} (h : c.valid = true) (k : Constraint) : c.meets k = true :=
  List.all_eq_true.1 h k (by cases k <;> decide)

/-- The bounds of the engine parameters that proofs use. -/
theorem valid_bounds {c : Cfg} (h : c.valid = true) :
    2 ≤ c.n ∧ c.n ≤ 65535 ∧ c.table.length = c.n ∧ c.minDuty.toNat ≤ c.maxDuty.toNat ∧
    c.maxDuty.toNat ≤ c.flatTopDuty.toNat ∧ 1 ≤ c.softStartCycles.toNat ∧ 1 ≤ c.pingRampHc.toNat ∧
    c.fbDelay ≤ 255 ∧ 0 ≤ c.iLimit.toInt ∧ 1 ≤ c.fbZeroCountMax.toNat ∧ 0 ≤ c.saturationDutyGain.toInt ∧
    1 ≤ c.vbattNominal.toNat := by
  have h1 := meets_of_valid h .nRange
  have h2 := meets_of_valid h .tableLength
  have h3 := meets_of_valid h .minLeMax
  have h4 := meets_of_valid h .maxLeFlatTop
  have h5 := meets_of_valid h .softStartCyclesPos
  have h6 := meets_of_valid h .pingRampPos
  have h7 := meets_of_valid h .fbDelayRange
  have h8 := meets_of_valid h .iLimitNonneg
  have h9 := meets_of_valid h .fbZeroCountMaxPos
  have h10 := meets_of_valid h .satGainNonneg
  have h11 := meets_of_valid h .vbattNominalPos
  simp only [Cfg.meets, Bool.and_eq_true, decide_eq_true_eq, beq_iff_eq] at *
  exact ⟨h1.1, h1.2, h2, h3, h4, h5, h6, h7, h8, h9, h10, h11⟩

/-- A table entry is at most 1.0 (00_scope.md R9). -/
theorem table_le {c : Cfg} (h : c.valid = true) (i : Nat) : (c.table.getD i 0).toNat ≤ 65536 := by
  have h1 := meets_of_valid h .tableEntries
  simp only [Cfg.meets, List.all_eq_true, decide_eq_true_eq] at h1
  rw [List.getD_eq_getElem?_getD]
  cases hi : c.table[i]? with
  | none => decide
  | some t => exact h1 t (List.mem_of_getElem? hi)

theorem table_get {c : Cfg} (h : c.valid = true) {i : Nat} (hi : i < c.n) :
    c.table[i]? = some (c.table.getD i 0) := by
  have hl := (valid_bounds h).2.2.1
  rw [List.getD_eq_getElem?_getD, List.getElem?_eq_getElem (by omega)]; rfl

/-! ### The drive step -/

/-- The drive outputs for a duty on the pair of a phase (44_clamp_saturation.md R291). -/
theorem driveStep_spec (d : U16) (s : State) :
    driveStep d s =
      if s.ovl.skipNextPulseCount = 0 then
        { s with drive := match s.seq.phase with
            | .positive => ⟨d, d, 0, false, true, false, false⟩
            | .negative => ⟨d, 0, d, true, false, false, false⟩ }
      else
        { s with
          drive := DriveRegs.reset
          ovl.skipNextPulseCount := decU16 s.ovl.skipNextPulseCount } := by
  unfold driveStep
  split
  · cases h : s.seq.phase <;> simp only [driveDuty, h]
  · rfl

theorem decU16_of_ne_zero {x : U16} (h : x ≠ 0) : decU16 x = x - 1 := by
  have h0 : x.toNat ≠ 0 := fun e => h (toNat_eq_zero_iff.1 e)
  apply BitVec.eq_of_toNat_eq
  rw [decU16_toNat]
  have := x.isLt
  have h1 : (1 : U16).toNat = 1 := rfl
  rw [BitVec.toNat_sub, h1]
  omega

/-! ### The self-tests -/

/-- All that `peak_tests(fb_s)` can do (44_clamp_saturation.md R295 to R297). -/
theorem peakTests_spec (f : S17) (s : State) :
    (s.seq.idx.toNat ≠ s.cfg.peakIdx → peakTests f s = s) ∧
    (s.seq.engState ≠ .softStart → s.seq.engState ≠ .normal → peakTests f s = s) ∧
    (s.seq.idx.toNat = s.cfg.peakIdx → s.seq.engState = .softStart →
      peakTests f s = if f.toInt < -(s.cfg.noiseBand.toNat : Int) then
          { s with flags.feedbackReversed := true, seq.engState := .softStop } else s) ∧
    (s.seq.idx.toNat = s.cfg.peakIdx → s.seq.engState = .normal → ∃ z : U16,
      z = (if f.toInt.natAbs < s.cfg.noiseBand.toNat then incU16 s.fbZeroCount else 0) ∧
      peakTests f s = if s.cfg.fbZeroCountMax.toNat ≤ z.toNat then
          { s with fbZeroCount := z, flags.outputShorted := true, seq.engState := .softStop }
        else { s with fbZeroCount := z }) := by
  refine ⟨?_, ?_, ?_, ?_⟩
  · intro h; rw [peakTests, if_neg h]
  · intro h1 h2; unfold peakTests; split
    · split <;> first | rfl | simp_all
    · rfl
  · intro h1 h2; simp only [peakTests, if_pos h1, h2, reversedTest, raiseFault]
  · intro h1 h2; refine ⟨_, rfl, ?_⟩
    simp only [peakTests, if_pos h1, h2, nearZeroTest, raiseFault]

/-! ### The tick -/

theorem fbSample_toInt (s : State) :
    (fbSample s).toInt = if s.seq.phase = .positive then s.ports.fbIn.toInt else -s.ports.fbIn.toInt := by
  have h1 := BitVec.toInt_lt (x := s.ports.fbIn)
  have h2 := BitVec.le_toInt (x := s.ports.fbIn)
  norm_num at h1 h2
  unfold fbSample
  split <;> rename_i h <;> simp only [h, BitVec.toInt_ofInt, reduceCtorEq, if_true, if_false] <;>
    exact Int.bmod_eq_of_le (by omega) (by omega)

/-- The line after a tick: the newest sample first, the oldest dropped (43_pid_corrector.md R232). -/
theorem shiftFeedback_line (s : State) :
    (shiftFeedback s).fbDly = (fbSample s :: s.fbDly).take s.fbDly.length := by
  show (fbSample s :: s.fbDly).dropLast = _
  rw [List.dropLast_eq_take]; rfl

/-- An active tick of a state inside the table runs (40_engine_commands.md R150 steps D to I). -/
theorem finishTick_active {s : State} (hv : s.cfg.valid = true) (hi : s.seq.idx.toNat < s.cfg.n)
    (ha : s.seq.engState ≠ .idle) :
    finishTick s = .next (activeTick (s.cfg.table.getD s.seq.idx.toNat 0) s) := by
  rw [finishTick, if_neg ha, table_get hv hi]

/-- The open-loop duty (40 R152). -/
theorem clampDuty_toNat {c : Cfg} (h : c.minDuty.toNat ≤ c.maxDuty.toNat) (v : Int) :
    ((clampDuty c v).toNat : Int) = max (c.minDuty.toNat : Int) (min v c.maxDuty.toNat) := by
  have := c.maxDuty.isLt
  have h2 := sat_mem (v := v) (lo := (c.minDuty.toNat : Int)) (hi := c.maxDuty.toNat) (by omega)
  rw [clampDuty, satU16_of_mem (by omega) (by omega), Int.toNat_of_nonneg (by omega)]
  unfold sat; split <;> [omega; (split <;> omega)]

/-! ### Counting half-cycles -/

/-- One more half-cycle is done, whatever `hc_count` can hold (40_engine_commands.md R163). -/
theorem halvesDone_countHalf {r : RampState} (h : halvesDone r < 131070) :
    halvesDone (countHalf r) = halvesDone r + 1 := by
  have h1 := r.hcCount.isLt
  unfold halvesDone countHalf at *
  split <;> simp only [incU16_toNat] <;> omega

@[simp] theorem countHalf_multiplier (r : RampState) : (countHalf r).multiplier = r.multiplier := rfl
@[simp] theorem countHalf_rampInc (r : RampState) : (countHalf r).rampInc = r.rampInc := rfl
@[simp] theorem countHalf_normHalves (r : RampState) : (countHalf r).normHalves = r.normHalves := rfl
@[simp] theorem countHalf_hcCount (r : RampState) : (countHalf r).hcCount = incU16 r.hcCount := rfl

/-- Half-cycles are counted beside `hc_count` only once it is full. -/
theorem countHalf_full {r : RampState} (h : r.hcOver ≠ 0 → r.hcCount.toNat = 65535) :
    (countHalf r).hcOver ≠ 0 → (countHalf r).hcCount.toNat = 65535 := by
  intro h1
  rw [countHalf_hcCount, incU16_toNat]
  by_cases h2 : r.hcCount.toNat = 65535
  · omega
  · exact absurd (h (by simpa [countHalf, h2] using h1)) h2

/-- One step up the ramp (40 R160, R163). -/
theorem rampUp_toNat (s : State) :
    (rampUp s).toNat = min 65535 (s.ramp.multiplier.toNat + s.ramp.rampInc.toNat) := by
  rw [rampUp, satU16_toNat]; unfold sat; split <;> [omega; (split <;> omega)]

/-- One step down the ramp (40 R163, R165). -/
theorem rampDown_toNat (s : State) : (rampDown s).toNat = s.ramp.multiplier.toNat - s.ramp.rampInc.toNat := by
  have := s.ramp.multiplier.isLt
  rw [rampDown, satU16_toNat]; unfold sat; split <;> [omega; (split <;> omega)]

/-! ### Boundary -/

theorem advance_inside {s : State} (h : s.seq.idx.toNat + 1 ≠ s.cfg.n) :
    advance s = { s with seq.idx := incU16 s.seq.idx } := by rw [advance, if_neg h]

theorem advance_boundary {s : State} (h : s.seq.idx.toNat + 1 = s.cfg.n) : advance s = boundary s := by
  rw [advance, if_pos h]

end Sys2Proof.Laws
end

