-- ==== Sys2Proof/Laws/Step.lean ====
section
/-! SUPPORT. One lemma for each way a step can go: the next event, a bus access at an offset, the
operations of a control word. Proofs cite these and leave `step` and `runEvent` folded. -/

namespace Sys2Proof.Laws

open Sys2Proof Sys2Proof.Machine

/-- With a valid record, a step is its next event. -/
theorem step_event {s : State} {e : Event} {rest : List Event} (h : s.cfg.valid = true)
    (he : s.events = e :: rest) : step s = runEvent e (beginEvent rest s) := by
  rw [step, if_pos h, he]

/-- With nothing to come, a step leaves the state as it is. -/
theorem step_idle {s : State} (h : s.cfg.valid = true) (he : s.events = []) : step s = .next s := by
  rw [step, if_pos h, he]

/-- A step that answers a next state has a valid record. -/
theorem valid_of_step {s t : State} (h : step s = .next t) : s.cfg.valid = true := by
  unfold step at h
  split at h
  · assumption
  · cases h

/-- An `eng_tick` whose latch holds a command is that command's meaning. -/
theorem engTick_command {s : State} {i : Instr} (h : decodeCmd s.cmdLatch = .ok i) : engTick s = exec i s := by
  rw [engTick, fetchCommand, h]

/-- An `eng_tick` whose latch holds a reserved code is a tick of NONE with the latch emptied. -/
theorem engTick_reserved {s : State} {e : DecodeError} (h : decodeCmd s.cmdLatch = .error e) :
    engTick s = exec .none (emptyLatch s) := by
  rw [engTick, fetchCommand, h]

/-- A `zc_tick` alone: the instance's own function on its parameters, the sample and itself. -/
theorem step_zcTick {s : State} {j : ZcId} {ac : U16} {rest : List Event} (h : s.cfg.valid = true)
    (he : s.events = .zcTick j ac :: rest) :
    step s = .next (setZcOut j (zcTick (zcCfg s.cfg j) ac (getZc s j))
      { beginEvent rest s with ports.acRaw := ac }) := by
  rw [step_event h he]
  cases j <;> rfl

/-- When an access is performed, and at which offset (20_memory.md R75). -/
theorem busOffset_eq_some (c : Cfg) (a n o : Nat) : busOffset c a n = some o ↔
    n = 4 ∧ c.regBase ≤ a ∧ (a - c.regBase) % 4 = 0 ∧ a - c.regBase ≤ 0x7FFFC ∧ o = a - c.regBase := by
  unfold busOffset
  split <;> simp_all <;> grind

/-- A performed write. -/
theorem busWrite_at {s : State} {o : Nat} (v : U32) (h4 : o % 4 = 0) (hl : o ≤ 0x7FFFC) :
    busWrite (s.cfg.regBase + o) 4 v s = regWrite o v s := by
  have h : busOffset s.cfg (s.cfg.regBase + o) 4 = some o :=
    (busOffset_eq_some _ _ _ _).2 ⟨rfl, by omega, by rw [Nat.add_sub_cancel_left]; exact h4, by omega, by omega⟩
  rw [busWrite, h]

/-- The operations of a control word, bit by bit (30_encoding.md R118). -/
theorem decodeCtrl_cases (offset : Nat) (w : U32) : decodeCtrl offset w =
    (if offset = 0x28 ∧ w &&& 1 = 1 then [Instr.ovlReset] else []) ++
    ((if offset = 0x3C ∧ w &&& 1 = 1 then [Instr.zcStopChg] else []) ++
    ((if offset = 0x3C ∧ w &&& 2 = 2 then [Instr.zcStopInv] else []) ++
    ((if offset = 0x04 ∧ w &&& 8 = 8 then [Instr.clrFbReversed] else []) ++
    (if offset = 0x04 ∧ w &&& 16 = 16 then [Instr.clrOutShorted] else [])))) := by
  simp only [decodeCtrl, ctrlRows, List.filter_cons, Row.hit, List.filter_nil, ovlCtrlOffset, zcCtrlOffset,
    statusOffset, Bool.and_eq_true, beq_iff_eq, eq_comm (b := offset)]
  split_ifs <;> simp_all

/-- A decoded bit as a test of that bit. -/
theorem and_twoPow_eq (w : U32) (k : Nat) (hk : k < 32) :
    (w &&& BitVec.twoPow 32 k = BitVec.twoPow 32 k) ↔ w.getLsbD k = true := by
  constructor
  · intro h
    have h1 := congrArg (·.getLsbD k) h
    simpa [BitVec.getLsbD_twoPow, hk] using h1
  · intro h
    ext i hi
    simp only [BitVec.getElem_and, BitVec.getElem_twoPow, Bool.and_eq_right_iff_imp, decide_eq_true_eq]
    intro e
    subst e
    simpa [BitVec.getLsbD_eq_getElem hi] using h

/-- The four bytes of a word are that word. -/
theorem wordOfBytes_bytesOfWord (w : U32) : wordOfBytes (bytesOfWord w) = some w := by
  simp only [wordOfBytes, bytesOfWord, Option.some.injEq]
  apply BitVec.eq_of_getLsbD_eq
  intro i hi
  rw [BitVec.getLsbD_append, BitVec.getLsbD_append, BitVec.getLsbD_append]
  simp only [BitVec.getLsbD_extractLsb']
  split <;> [simp [*]; split] <;> [skip; split] <;> simp [*] <;> grind

end Sys2Proof.Laws
end

