-- ==== Sys2Proof/Laws/Events.lean ====
section
/-! SUPPORT. What each event can do, said once: a tick, a bus write, an overload step and a
zero-crossing tick, for the proofs to cite instead of unfolding them. -/

namespace Sys2Proof.Laws

open Sys2Proof Sys2Proof.Machine

/-! ### Steps and ticks -/

/-- All the ways a step can answer a next state. -/
theorem step_next {s t : State} (h : step s = .next t) : s.cfg.valid = true ∧
    ((s.events = [] ∧ t = s) ∨ ∃ e rest, s.events = e :: rest ∧ runEvent e (beginEvent rest s) = .next t) := by
  have hv := valid_of_step h
  refine ⟨hv, ?_⟩
  cases he : s.events with
  | nil => rw [step_idle hv he] at h; cases h; exact .inl ⟨rfl, rfl⟩
  | cons e rest => rw [step_event hv he] at h; exact .inr ⟨e, rest, rfl, h⟩

/-- All the ways a tick can go on once its command has been dealt with (40_engine_commands.md R150 steps C
to I). -/
theorem finishTick_next {s t : State} (h : finishTick s = .next t) :
    (s.seq.engState = .idle ∧ t = idleTick s) ∨
    (s.seq.engState ≠ .idle ∧ ∃ x, s.cfg.table[s.seq.idx.toNat]? = some x ∧ t = activeTick x s) := by
  unfold finishTick at h
  split at h
  · next hi => cases h; exact .inl ⟨hi, rfl⟩
  · next hi =>
    split at h
    · next x hx => cases h; exact .inr ⟨hi, x, hx, rfl⟩
    · cases h

/-- All the ways a command that is no clear can go (40 R143, R150). -/
theorem commandTick_next {f : State → State} {s t : State} (h : commandTick f s = .next t) :
    (s.ovl.state = .shutdown ∧ s.seq.engState ≠ .idle ∧ t = engineClear (beginTick s)) ∨
    finishTick (f (beginTick s)) = .next t := by
  unfold commandTick at h
  split at h
  · next hs => cases h; exact .inl ⟨hs.1, hs.2, rfl⟩
  · exact .inr h

/-- What an `eng_tick` fetches is one of the seven commands. -/
theorem fetchCommand_format (s : State) : (fetchCommand s).1.format = .cmd8 := by
  unfold fetchCommand
  split
  · next i h =>
    unfold decodeCmd at h
    split at h
    · next r hr =>
      cases h
      exact (by decide : ∀ q ∈ cmdRows, q.instr.format = .cmd8) r (List.mem_of_find?_eq_some hr)
    · cases h
  · rfl

/-- Fetching a command can only empty the latch. -/
theorem fetchCommand_state (s : State) : (fetchCommand s).2 = s ∨ (fetchCommand s).2 = emptyLatch s := by
  unfold fetchCommand
  split
  · exact .inl rfl
  · exact .inr rfl

/-- All the ways a `pwm_tick` can go (60_exceptions.md R411). -/
theorem pwmTick_next {s t : State} (h : pwmTick s = .next t) :
    (s.ports.handler = .inverter ∧ ∃ u, engTick s = .next u ∧ t = tickZc .inv u) ∨
    (s.ports.handler = .charger ∧ t = tickZc .chg { s with safe.safeCyclesLeft := s.cfg.safeICycles }) ∨
    ((s.ports.handler = .default ∨ s.ports.handler = .bootCharge) ∧ t = s) := by
  unfold pwmTick at h
  split at h
  · next hh =>
    cases he : engTick s with
    | next u => rw [he] at h; cases h; exact .inl ⟨hh, u, rfl, rfl⟩
    | fault r => rw [he] at h; cases h
    | refused r => rw [he] at h; cases h
  · next hh => cases h; exact .inr (.inl ⟨hh, rfl⟩)
  · next hh => cases h; exact .inr (.inr ⟨.inl hh, rfl⟩)
  · next hh => cases h; exact .inr (.inr ⟨.inr hh, rfl⟩)

/-! ### Host writes -/

/-- The operations of a control word are control writes. -/
theorem decodeCtrl_format {offset : Nat} {w : U32} {i : Instr} (h : i ∈ decodeCtrl offset w) :
    i.format = .ctrl32 := by
  rw [decodeCtrl_cases] at h
  simp only [List.mem_append] at h
  rcases h with h | h | h | h | h <;> split at h <;> simp at h <;> subst h <;> rfl

/-- What every operation of a word keeps, the word keeps. -/
theorem runControls_induction {P : State → Prop} {is : List Instr}
    (hp : ∀ i ∈ is, ∀ s t, P s → exec i s = .next t → P t) {s t : State} (hs : P s)
    (h : runControls is s = .next t) : P t := by
  induction is generalizing s with
  | nil => cases h; exact hs
  | cons i is ih =>
    rw [runControls] at h
    cases he : exec i s with
    | next u =>
      rw [he] at h
      exact ih (fun k hk => hp k (List.mem_cons_of_mem _ hk)) (hp i List.mem_cons_self s u hs he) h
    | fault r => rw [he] at h; cases h
    | refused r => rw [he] at h; cases h

/-- What the latch write and the five control writes keep, a host write keeps. -/
theorem busWrite_induction {P : State → Prop} {a n : Nat} {v : U32} {s t : State}
    (hl : P s → P (cmdWrite v s))
    (hp : ∀ i, i.format = .ctrl32 → ∀ s t, P s → exec i s = .next t → P t) (hs : P s)
    (h : busWrite a n v s = .next t) : P t := by
  unfold busWrite at h
  split at h
  · unfold regWrite at h
    split at h
    · cases h; exact hl hs
    · exact runControls_induction (fun i hi => hp i (decodeCtrl_format hi)) hs h
  · cases h; exact hs

/-! ### Overload -/

/-- All that `sample_tick` can do (46_overload.md R361, R364). -/
theorem sampleTick_spec (s : State) :
    sampleTick s =
      if clampThreshold s < clampRect s then
        { s with ovl.skipNextPulseCount := s.cfg.ovl.skipPulses, ovl.event := true, drive := DriveRegs.reset }
      else s := by
  unfold sampleTick
  split <;> rfl

/-- `zc_task` in NONE (46 R372). -/
theorem zcTask_none {s : State} (h : s.ovl.state = .none) :
    zcTask s = if overloadCond s then ovlStart (ovlStepBegin s) else ovlStepBegin s := by
  unfold zcTask; rw [h]

/-- `zc_task` in SHORT_OVERLOAD (46 R373, R375). -/
theorem zcTask_short {s : State} (h : s.ovl.state = .shortOverload) :
    zcTask s = ovlLoose (ovlCount (overloadCond s) (ovlStepBegin s)) := by
  unfold zcTask; rw [h]

/-- `zc_task` in SUSTAINED_OVERLOAD (46 R374, R375). -/
theorem zcTask_sustained {s : State} (h : s.ovl.state = .sustainedOverload) :
    zcTask s = ovlTight (ovlCount (overloadCond s) (ovlStepBegin s)) := by
  unfold zcTask; rw [h]

/-- `zc_task` in SHUTDOWN (46 R376). -/
theorem zcTask_shutdown {s : State} (h : s.ovl.state = .shutdown) : zcTask s = ovlStepBegin s := by
  unfold zcTask; rw [h]

/-! ### Zero crossing -/

/-- The average of three samples fits its register (45_zero_crossing_fsm.md R312). -/
theorem zcAverage_toNat (z : ZcInst) : (zcAverage z).toNat = (z.s0.toNat + z.s1.toNat + z.s2.toNat) / 3 := by
  have := z.s0.isLt; have := z.s1.isLt; have := z.s2.isLt
  rw [zcAverage, BitVec.toNat_ofNat, Nat.mod_eq_of_lt (by omega)]

/-- A positive-going crossing (45 R313). -/
theorem crossPos_iff (c : ZcCfg) (prev cur ac : U16) : (crossingOf c prev cur ac).crossPos = true ↔
    prev.toNat < c.zcThreshold.toNat ∧ c.zcThreshold.toNat ≤ cur.toNat := by
  simp [crossingOf]

/-- A negative-going crossing (45 R313). -/
theorem crossNeg_iff (c : ZcCfg) (prev cur ac : U16) : (crossingOf c prev cur ac).crossNeg = true ↔
    c.zcThreshold.toNat ≤ prev.toNat ∧ cur.toNat < c.zcThreshold.toNat := by
  simp [crossingOf]

/-- A tick with a full filter and no stop request runs the protocol (45 R314). -/
theorem zcTick_running {c : ZcCfg} {ac : U16} {z : ZcInst} (h1 : z.stopReq = false) (h2 : z.histFill = 3)
    (h3 : z.havePrev = true) :
    zcTick c ac z = zcProtocol c (crossingOf c z.avgPrev (zcAverage (zcPushSample ac z)) ac)
      { z with s0 := ac, s1 := z.s0, s2 := z.s1, avgPrev := zcAverage (zcPushSample ac z) } := by
  simp only [zcTick, zcStopCheck, h1, zcFilterAndRun, zcPushSample, h2, h3]
  simp [h1, h2, h3]

/-- All that a `zc_tick` can do to an instance: the filter alone, or the protocol after it (45 R312,
R314). -/
theorem zcTick_cases (c : ZcCfg) (ac : U16) (z : ZcInst) :
    let y := zcPushSample ac (zcStopCheck z)
    zcTick c ac z = (y, ZcPulses.zero) ∨
    zcTick c ac z = ({ y with avgPrev := zcAverage y, havePrev := true }, ZcPulses.zero) ∨
    zcTick c ac z = zcProtocol c (crossingOf c y.avgPrev (zcAverage y) ac) { y with avgPrev := zcAverage y } := by
  intro y
  unfold zcTick zcFilterAndRun
  dsimp only
  split
  · exact .inl rfl
  · split
    · exact .inr (.inl rfl)
    · exact .inr (.inr rfl)

/-- Leaving a lock or an attempt: `reset_to_init()` keeps the filter and the stop request (45 R318). -/
theorem resync_spec (z : ZcInst) : resync z =
    ({ z with zcState := .init, count := 0, posCount := 0, negCount := 0, outputting := false,
              confirmLeft := 0 }, ⟨false, false, true⟩) := rfl

end Sys2Proof.Laws
end

