-- ==== Sys2Proof/Laws/PerInstr.lean ====
section
/-! SUPPORT. Statements about every instruction as syntax, one lemma per constructor: an instruction's
word stands in its own row of the opcode table, and no other row of the same register accepts it. -/

namespace Sys2Proof.Laws

open Sys2Proof

/-- The instruction has a row in the table of its format; the row's carrier offset and bits are those the
encoder writes, no bit stands outside the row's mask, and no row of another instruction hits the word at
that offset (30_encoding.md R101, R118). -/
def RowInTable.Statement (i : Instr) : Prop :=
  (∃ m, ⟨i, carrier i, m, encode i⟩ ∈ cmdRows ++ ctrlRows ∧ encode i &&& m = encode i) ∧
  ∀ r ∈ cmdRows ++ ctrlRows, r.hit (carrier i) (encode i) = true → r.instr = i

theorem RowInTable.none : RowInTable.Statement .none := ⟨⟨0xFF, by decide, by decide⟩, by decide⟩
theorem RowInTable.reset : RowInTable.Statement .reset := ⟨⟨0xFF, by decide, by decide⟩, by decide⟩
theorem RowInTable.softStart : RowInTable.Statement .softStart := ⟨⟨0xFF, by decide, by decide⟩, by decide⟩
theorem RowInTable.start : RowInTable.Statement .start := ⟨⟨0xFF, by decide, by decide⟩, by decide⟩
theorem RowInTable.ping : RowInTable.Statement .ping := ⟨⟨0xFF, by decide, by decide⟩, by decide⟩
theorem RowInTable.softStop : RowInTable.Statement .softStop := ⟨⟨0xFF, by decide, by decide⟩, by decide⟩
theorem RowInTable.stop : RowInTable.Statement .stop := ⟨⟨0xFF, by decide, by decide⟩, by decide⟩
theorem RowInTable.ovlReset : RowInTable.Statement .ovlReset := ⟨⟨0x1, by decide, by decide⟩, by decide⟩
theorem RowInTable.zcStopChg : RowInTable.Statement .zcStopChg := ⟨⟨0x1, by decide, by decide⟩, by decide⟩
theorem RowInTable.zcStopInv : RowInTable.Statement .zcStopInv := ⟨⟨0x2, by decide, by decide⟩, by decide⟩
theorem RowInTable.clrFbReversed : RowInTable.Statement .clrFbReversed :=
  ⟨⟨0x8, by decide, by decide⟩, by decide⟩
theorem RowInTable.clrOutShorted : RowInTable.Statement .clrOutShorted :=
  ⟨⟨0x10, by decide, by decide⟩, by decide⟩

end Sys2Proof.Laws
end

