-- ==== Sys2Proof/Tests/Slice0.lean ====
section
/-! SUPPORT. Tests. Expected values come from spec/: the encodings of 30_encoding.md and the vectors of
95_test_vectors.md, named beside each. The last part shows, for every statement with hypotheses, a concrete
state and operands that meet them. -/

namespace Sys2Proof.Tests

open Sys2Proof Sys2Proof.Machine Sys2Proof.Claims

set_option Elab.async false

/-! ### Helpers -/

/-- The outcome is a next state with the property. -/
def outIs (p : State → Bool) (o : Out) : Bool :=
  match o with
  | .next t => p t
  | _ => false

theorem out_next {p : State → Bool} {o : Out} (h : outIs p o = true) : ∃ t, o = .next t ∧ p t = true := by
  cases o with
  | next t => exact ⟨t, rfl, h⟩
  | fault r => cases h
  | refused r => cases h

/-- `s` after the event, tested. -/
def after (s : State) (e : Event) (p : State → Bool) : Bool := outIs p (step (withEvents s [e]))

/-- FIX8 right after `hw_reset`, with a command in the latch. -/
def latched (code : U8) : State := { State.reset with cmdLatch := code }

/-- An engine of FIX8 in the middle of a run, ramp as after SOFT_START at the nominal battery. -/
def eng (e : EngState) (p : Phase) (i : U16) : State :=
  { State.reset with seq := ⟨e, p, i⟩, ramp := ⟨200, 200, 0, 0, 0⟩ }

/-- An instance with a full filter whose last average is `avg` from equal samples. -/
def zcAt (z : ZcState) (count pos neg avg : U16) : ZcInst :=
  { ZcInst.reset with
    zcState := z, count := count, posCount := pos, negCount := neg, outputting := locked z
    confirmLeft := if confirming z then 1 else 0
    s0 := avg, s1 := avg, s2 := avg, histFill := 3, avgPrev := avg, havePrev := true }

/-- FIX8 right after `hw_reset` with that instance INV. -/
def withInv (z : ZcInst) : State := { State.reset with zcInv := z }

/-- FIX8 right after `hw_reset` with that overload group. -/
def withOvl (o : OvlGroup) : State := { State.reset with ovl := o }

/-! ### WellFormed: one ill-formed record for each check, which the check refuses (00_scope.md R9 to R14) -/

/-- The record breaks the constraint, and a machine with it is refused. -/
def refusedFor (k : Constraint) (c : Cfg) : Bool :=
  !c.meets k && match step (State.resetWith c) with
    | .refused .invalidConfig => true
    | _ => false

theorem test_wf_fix8 : Cfg.fix8.valid = true := by decide
theorem test_wf_nRange :
    refusedFor .nRange { Cfg.fix8 with n := 1, table := [0], satTailStart := 0 } = true := by decide
theorem test_wf_nRange_top : ({ Cfg.fix8 with n := 65536 } : Cfg).meets .nRange = false := by decide
theorem test_wf_tableLength :
    refusedFor .tableLength { Cfg.fix8 with table := [0, 0, 0, 0, 0, 0, 0] } = true := by decide
theorem test_wf_tableEntries :
    refusedFor .tableEntries { Cfg.fix8 with table := [0, 0, 0, 0x10001, 0x10001, 0, 0, 0] } = true := by decide
/-- The counter-instance of vector S1. -/
theorem test_wf_tableSymmetry :
    refusedFor .tableSymmetry { Cfg.fix8 with
      table := [0x2000, 0x8000, 0xC000, 0x10000, 0x10000, 0xC000, 0x8000, 0x3000] } = true := by decide
theorem test_wf_tableHump :
    refusedFor .tableHump { Cfg.fix8 with table := [2, 1, 3, 4, 4, 3, 1, 2] } = true := by decide
theorem test_wf_pwmPeriodPos : refusedFor .pwmPeriodPos { Cfg.fix8 with pwmPeriod := 0 } = true := by decide
theorem test_wf_minLeMax : refusedFor .minLeMax { Cfg.fix8 with minDuty := 951 } = true := by decide
theorem test_wf_maxLeFlatTop : refusedFor .maxLeFlatTop { Cfg.fix8 with flatTopDuty := 949 } = true := by decide
theorem test_wf_flatTopLePeriod :
    refusedFor .flatTopLePeriod { Cfg.fix8 with flatTopDuty := 1001 } = true := by decide
theorem test_wf_softStartLePeriod :
    refusedFor .softStartLePeriod { Cfg.fix8 with softStartMaxDuty := 1001 } = true := by decide
theorem test_wf_softStartCyclesPos :
    refusedFor .softStartCyclesPos { Cfg.fix8 with softStartCycles := 0 } = true := by decide
theorem test_wf_pingRampPos : refusedFor .pingRampPos { Cfg.fix8 with pingRampHc := 0 } = true := by decide
theorem test_wf_vbattNominalPos :
    refusedFor .vbattNominalPos { Cfg.fix8 with vbattNominal := 0 } = true := by decide
theorem test_wf_fbDelayRange : refusedFor .fbDelayRange { Cfg.fix8 with fbDelay := 256 } = true := by
  decide +kernel
theorem test_wf_iLimitNonneg : refusedFor .iLimitNonneg { Cfg.fix8 with iLimit := 0xFFFFFFFF } = true := by decide
theorem test_wf_fbZeroCountMaxPos :
    refusedFor .fbZeroCountMaxPos { Cfg.fix8 with fbZeroCountMax := 0 } = true := by decide
theorem test_wf_satTailRange : refusedFor .satTailRange { Cfg.fix8 with satTailStart := 9 } = true := by decide
theorem test_wf_satGainNonneg :
    refusedFor .satGainNonneg { Cfg.fix8 with saturationDutyGain := 0x80000000 } = true := by decide
theorem test_wf_zcOffsetStepPos :
    refusedFor .zcOffsetStepPos { Cfg.fix8 with zcOffsetStep := 0 } = true := by decide
theorem test_wf_bandChg : refusedFor .bandChg { Cfg.fix8 with zcChg.phaseCountMin := 13 } = true := by decide
theorem test_wf_confirmChg :
    refusedFor .confirmChg { Cfg.fix8 with zcChg.zcConfirmTicks := 0 } = true := by decide
theorem test_wf_bandInv : refusedFor .bandInv { Cfg.fix8 with zcInv.phaseCountMin := 13 } = true := by decide
theorem test_wf_confirmInv :
    refusedFor .confirmInv { Cfg.fix8 with zcInv.zcConfirmTicks := 0 } = true := by decide
theorem test_wf_vdsLeImeas : refusedFor .vdsLeImeas { Cfg.fix8 with ovl.vdsThreshold := 401 } = true := by decide
theorem test_wf_irmsTimeoutPos :
    refusedFor .irmsTimeoutPos { Cfg.fix8 with ovl.irmsTimeout := 0 } = true := by decide
theorem test_wf_vdsTimeoutPos :
    refusedFor .vdsTimeoutPos { Cfg.fix8 with ovl.vdsTimeout := 0 } = true := by decide
theorem test_wf_resetCountPos :
    refusedFor .resetCountPos { Cfg.fix8 with ovl.resetCount := 0 } = true := by decide

/-! ### Decode: a word of every row, written out from 30_encoding.md R101, R102, R118 -/

theorem test_decode_none : decodeWrite 0x00 0x00000000 = .ok [.none] := by decide
theorem test_decode_reset : decodeTableWord 8 0b00000001 = some .reset := by decide
theorem test_decode_softStart : decodeTableWord 8 0b00000010 = some .softStart := by decide
/-- Vector M1: bits 31:8 of a word for CMD are ignored. -/
theorem test_decode_upper_bits : decodeWrite 0x00 0xFFFFFF02 = .ok [.softStart] := by decide
theorem test_decode_start : decodeTableWord 8 0b00000011 = some .start := by decide
theorem test_decode_ping : decodeTableWord 8 0b00000100 = some .ping := by decide
theorem test_decode_softStop : decodeTableWord 8 0b00000101 = some .softStop := by decide
theorem test_decode_stop : decodeBytes 0x00 [0b00000110, 0, 0, 0] = .ok [.stop] := by decide
theorem test_decode_ovlReset : decodeBytes 0x28 [0b00000001, 0, 0, 0] = .ok [.ovlReset] := by decide
theorem test_decode_zcStopChg : decodeWrite 0x3C 0b01 = .ok [.zcStopChg] := by decide
theorem test_decode_zcStopInv : decodeWrite 0x3C 0b10 = .ok [.zcStopInv] := by decide
theorem test_decode_clrFbReversed : decodeWrite 0x04 0b01000 = .ok [.clrFbReversed] := by decide
/-- Vector M2: 0x3FF on STATUS clears both flags and does nothing else. -/
theorem test_decode_clrOutShorted : decodeWrite 0x04 0x3FF = .ok [.clrFbReversed, .clrOutShorted] := by decide
/-- R103: 0x07 and 0xFF are reserved. -/
theorem test_decode_reserved :
    decodeCmd 0x07 = .error (.reservedCode 0x07) ∧ decodeCmd 0xFF = .error (.reservedCode 0xFF) := by decide
/-- Vector M4: no decoded bit. -/
theorem test_decode_no_bit : decodeWrite 0x28 0xFFFFFFFE = .error (.noDecodedBit 0x28) := by decide
/-- 10_state.md R55: ENG_STATE is not writable. -/
theorem test_decode_not_writable : decodeWrite 0x08 1 = .error (.notWritable 0x08) := by decide
/-- R121: a word is four bytes. -/
theorem test_decode_short : decodeBytes 0x00 [0x02] = .error .notOneWord := by decide

/-! ### The instructions, one step each (95_test_vectors.md) -/

/-- T6: an IDLE tick. -/
theorem test_none_idle :
    after (latched 0) (.engTick 0 0 0 0) (fun t => t.seq.idx = 0 ∧ busReadValue t 0x38 4 = 5) = true := by
  decide +kernel
/-- R213: the base duty at index 1 under multiplier 200 is 100 (vector T1). -/
theorem test_none_open :
    after (eng .softStart .positive 1) (.engTick 0 0 512 0)
      (fun t => t.drive.dutyOut = 100 ∧ t.seq.idx = 2) = true := by decide +kernel
/-- S2: RESET in the middle of a run; every register is back at its reset value. -/
theorem test_reset :
    after { eng .normal .negative 3 with cmdLatch := 1, pid := ⟨50, 100, 7⟩ } (.engTick 300 0 512 0)
      (fun t => { t with ports := Ports.reset } = State.reset) = true := by decide +kernel
/-- E1. -/
theorem test_softStart :
    after (latched 2) (.engTick 0 0 512 0) (fun t => busReadValue t 0x0C 4 = 0x00C800C8 ∧
      t.drive.dutyOut = 25 ∧ busReadValue t 0x08 4 = 0x00010001 ∧ t.cmdLatch = 0) = true := by decide +kernel
/-- E2 with vbatt 600. -/
theorem test_softStart_scaled :
    after (latched 2) (.engTick 0 0 600 0) (fun t => t.ramp.rampInc = 170 ∧ t.ramp.multiplier = 170 ∧
      t.drive.dutyOut = 21) = true := by decide +kernel
/-- E3. -/
theorem test_start :
    after (latched 3) (.engTick 0 0 512 0) (fun t => t.seq = ⟨.normal, .positive, 1⟩ ∧
      t.ramp.multiplier = 800 ∧ t.ramp.rampInc = 200 ∧ t.drive.dutyOut = 143) = true := by decide +kernel
/-- E4 with vbatt 1024. -/
theorem test_start_scaled :
    after (latched 3) (.engTick 0 0 1024 0) (fun t => t.ramp.multiplier = 400 ∧ t.ramp.rampInc = 100 ∧
      t.drive.dutyOut = 93) = true := by decide +kernel
/-- E5, tick 0: multiplier 50, the base duty 6 clamped up to 20. -/
theorem test_ping :
    after (latched 4) (.engTick 0 0 512 0) (fun t => t.seq.engState = .ping ∧ t.ramp.multiplier = 50 ∧
      t.drive.dutyOut = 20) = true := by decide +kernel
/-- E13 for PING: with output_shorted set the start is refused and the latch emptied. -/
theorem test_ping_refused :
    after { latched 4 with flags.outputShorted := true } (.engTick 0 0 512 0)
      (fun t => t.seq.engState = .idle ∧ t.cmdLatch = 0 ∧ t.flags.outputShorted) = true := by decide +kernel
/-- E6: at the start of a full cycle SOFT_STOP is taken. -/
theorem test_softStop :
    after { eng .normal .positive 0 with cmdLatch := 5 } (.engTick 300 0 512 0)
      (fun t => t.seq = ⟨.softStop, .positive, 1⟩ ∧ t.cmdLatch = 0 ∧ t.ramp.multiplier = 200) = true := by
  decide +kernel
/-- E6: inside the cycle it waits, STATUS 0x201. -/
theorem test_softStop_waits :
    after { eng .normal .positive 3 with cmdLatch := 5 } (.engTick 300 0 512 0)
      (fun t => t.seq.engState = .normal ∧ statusWord t = 0x201) = true := by decide +kernel
/-- P6, line 4: STOP in IDLE. -/
theorem test_stop :
    after (latched 6) (.engTick 0 0 512 0) (fun t => t.seq.engState = .idle ∧ t.cmdLatch = 0) = true := by
  decide +kernel
/-- O7: `retry_count` survives. -/
theorem test_ovlReset :
    after (withOvl ⟨true, 2, .shutdown, 5, 1, 3, true⟩) (.busWrite 0x28 4 1)
      (fun t => t.ovl = ⟨false, 0, .none, 0, 0, 3, false⟩) = true := by decide +kernel
/-- M5: both instances. -/
theorem test_zcStop_both :
    after State.reset (.busWrite 0x3C 4 3) (fun t => t.zcChg.stopReq ∧ t.zcInv.stopReq) = true := by
  decide +kernel
/-- The first word of R82: CHG alone. -/
theorem test_zcStopChg :
    after State.reset (.busWrite 0x3C 4 1) (fun t => t.zcChg.stopReq ∧ ¬ t.zcInv.stopReq) = true := by
  decide +kernel
/-- Z7: INV, the register reads 0x0006_0036. -/
theorem test_zcStopInv :
    after (withInv (zcAt .posDetectOc 6 8 8 600)) (.busWrite 0x3C 4 2)
      (fun t => busReadValue t 0x48 4 = 0x00060036 ∧ ¬ t.zcChg.stopReq) = true := by decide +kernel
/-- M3: only FEEDBACK_REVERSED. -/
theorem test_clrFbReversed :
    after { State.reset with flags := ⟨true, true⟩ } (.busWrite 0x04 4 8) (fun t => t.flags = ⟨false, true⟩) =
      true := by decide +kernel
/-- The other bit of R83. -/
theorem test_clrOutShorted :
    after { State.reset with flags := ⟨true, true⟩ } (.busWrite 0x04 4 16) (fun t => t.flags = ⟨true, false⟩) =
      true := by decide +kernel

/-! ### Arithmetic (vectors A1 to A26) -/

theorem test_q16_trunc :
    q16MulInt 0x8000 101 = 50 ∧ q16MulInt 0x8000 (-101) = -50 ∧ q16Mul 0xFFFF8000 1 = 0 := by decide
theorem test_q16_div : q16Div 0x10000 0x30000 = some 0x5555 ∧ q16Div 0xFFFF0000 0x30000 = some 0xFFFFAAAB := by
  decide
theorem test_isqrt_top : isqrt32 0xFFFFFFFF = 65535 ∧ isqrt32 0x3FFFFFFF = 32767 := by decide +kernel
theorem test_scale : scaleByVBatt Cfg.fix8 800 600 = 682 ∧ scaleByVBatt Cfg.fix8 50000 256 = 65535 := by decide

/-! ### The other events -/

/-- 95 F11: after the third near-zero peak STATUS reads 0x091, so the window is still open; 44 R267(e): it and
the PID state of 43 R243 index 3 stay as they were (notes/assumptions/18.md). -/
theorem test_shorted_keeps_pid :
    after { eng .normal .positive 4 with flatTop := ⟨true, 5⟩, pid := ⟨0, 400, 950⟩, fbZeroCount := 2 }
      (.engTick 0 0 512 0)
      (fun t => statusWord t = 0x091 ∧ t.seq.engState = .softStop ∧ t.pid = ⟨0, 400, 950⟩) = true := by
  decide +kernel

/-- F10: NEGATIVE half-cycle, the peak, `fb_in` = 11. -/
theorem test_reversed :
    after (eng .softStart .negative 4) (.engTick 11 0 512 0)
      (fun t => t.flags.feedbackReversed ∧ t.seq = ⟨.softStop, .negative, 5⟩) = true := by decide +kernel
/-- F9: `fb_in` = -10 is no fault. -/
theorem test_not_reversed :
    after (eng .softStart .positive 4) (.engTick (-10) 0 512 0) (fun t => !t.flags.feedbackReversed) = true := by
  decide +kernel
/-- F3: raw duty above MAX_DUTY at index 4 opens the window [4, 4). -/
theorem test_flat_top :
    after { eng .normal .positive 4 with ramp := ⟨960, 200, 0, 0, 0⟩ } (.engTick 400 0 512 0)
      (fun t => t.flatTop = ⟨true, 4⟩ ∧ t.drive.dutyOut = 1000 ∧ t.pid.integralSum = 0) = true := by
  decide +kernel
/-- E7: the last boundary of a ramp-down. -/
theorem test_soft_stop_ends :
    after (eng .softStop .positive 7) (.engTick 0 0 512 0)
      (fun t => t.seq = ⟨.idle, .positive, 0⟩ ∧ t.pulses.halfCycle ∧ ¬ t.pulses.fullCycle) = true := by
  decide +kernel
/-- O1: rect 400 is no hit. -/
theorem test_clamp_miss : after State.reset (.sampleTick 912 0 false) (fun t => !t.ovl.event) = true := by
  decide +kernel
/-- O1, O4: rect 401 is one; OVL_STATE reads 0x0002_0008. -/
theorem test_clamp_hit :
    after State.reset (.sampleTick 111 0 false) (fun t => busReadValue t 0x2C 4 = 0x00020008) = true := by
  decide +kernel
/-- O6: the step that ends the loose phase. -/
theorem test_tighten :
    after (withOvl ⟨false, 0, .shortOverload, 2, 0, 0, false⟩) (.zcTask 150)
      (fun t => t.ovl = ⟨true, 0, .sustainedOverload, 0, 0, 10, false⟩) = true := by decide +kernel
/-- Z1, tick 45: the real crossing at count 8. -/
theorem test_zc_accept :
    after (withInv { zcAt .posDetectOc 7 8 8 600 with s0 := 400 }) (.zcTick .inv 400)
      (fun t => t.zcInv.zcState = .confirmPosNeg ∧ t.zcInv.posCount = 8 ∧ t.pulses.inv = ⟨true, false, false⟩) =
      true := by decide +kernel
/-- Z5: a premature crossing by a small spike is ignored. -/
theorem test_zc_spike_ignored :
    after (withInv (zcAt .posDetectOc 2 8 8 540)) (.zcTick .inv 420)
      (fun t => t.zcInv.zcState = .posDetectOc ∧ t.zcInv.count = 3 ∧ t.pulses.inv = ZcPulses.zero) = true := by
  decide +kernel
/-- Z6: by a large one, it re-synchronises. -/
theorem test_zc_spike_resync :
    after (withInv (zcAt .posDetectOc 2 8 8 540)) (.zcTick .inv 300)
      (fun t => t.zcInv.zcState = .init ∧ t.zcInv.posCount = 0 ∧ t.pulses.inv = ⟨false, false, true⟩) = true := by
  decide +kernel
/-- Z8, R411: the charger's tick loads the safe window. -/
theorem test_charger :
    after State.reset (.pwmTick .charger 0 0 0 0 0) (fun t => t.safe.safeCyclesLeft = 2) = true := by
  decide +kernel
/-- T7: the table window and the reserved entry behind it. -/
theorem test_table_window :
    busReadValue State.reset 0x4000C 4 = 0x10000 ∧ busReadValue State.reset 0x40020 4 = 0 := by decide +kernel
/-- M7: an 8-bit write is not performed. -/
theorem test_narrow_write : after State.reset (.busWrite 0x00 1 2) (fun t => t.cmdLatch = 0) = true := by
  decide +kernel

/-! ### withFetchWord -/

theorem test_fetch_command :
    outIs (fun t => t.seq.engState = .softStart ∧ t.cmdLatch = 0) (step (State.reset.withFetchWord 8 2)) = true := by
  decide +kernel
theorem test_fetch_control :
    outIs (fun t => t.zcInv.stopReq ∧ ¬ t.zcChg.stopReq) (step (State.reset.withFetchWord 32 2)) = true := by
  decide +kernel

/-! ### Witnesses: the invariants of concrete states -/

/-- The conjuncts of `EngInv`, as a test. -/
def engOk (s : State) : Bool :=
  decide (s.seq.idx.toNat < s.cfg.n) &&
  decide (s.fbDly.length = s.cfg.fbDelay) &&
  decide (s.seq.engState = .idle → pidPhaseClear s = s ∧
    s.drive = ⟨s.drive.dutyOut, 0, 0, true, true, false, false⟩) &&
  decide ((s.seq.idx = 0 → (s.pid = ⟨0, 0, 0⟩ ∧ s.flatTop = ⟨false, 0⟩) ∧ s.rebal.dutyAcc = 0 ∧
    s.satDet.satAcc = 0)) &&
  decide ((s.seq.engState = .softStart ∨ s.seq.engState = .ping → (s.pid = ⟨0, 0, 0⟩ ∧
    s.flatTop = ⟨false, 0⟩) ∧ s.ramp.normHalves = 0 ∧ s.fbZeroCount = 0)) &&
  decide (s.seq.engState = .softStop → (s.pid = ⟨0, 0, 0⟩ ∧ s.flatTop = ⟨false, 0⟩) ∨
    (s.cfg.n / 2 < s.seq.idx.toNat ∧ s.cfg.fbZeroCountMax.toNat ≤ s.fbZeroCount.toNat)) &&
  decide (s.ramp.normHalves.toNat ≤ 2) &&
  decide (s.pid.integralSum.toInt.natAbs ≤ s.cfg.iLimit.toNat) &&
  decide (s.pid.savedIntegralSum.toInt.natAbs ≤ s.cfg.iLimit.toNat) &&
  decide ((s.flatTop.active = true → (s.seq.engState = .normal ∨ s.seq.engState = .softStop) ∧
    s.flatTop.endIdx.toNat ≤ s.cfg.n ∧ s.cfg.n ≤ 2 * s.flatTop.endIdx.toNat)) &&
  decide (s.rebal.dutyAcc.toNat ≤ s.seq.idx.toNat * 65535) &&
  decide (s.satDet.satAcc.toNat ≤ s.seq.idx.toNat * 65535) &&
  decide (s.seq.engState ≠ .idle → 1 ≤ s.ramp.rampInc.toNat) &&
  decide (s.seq.engState = .softStart → halvesDone s.ramp < s.cfg.softStartCycles.toNat) &&
  decide (s.seq.engState = .ping → halvesDone s.ramp < 2 * s.cfg.pingRampHc.toNat) &&
  decide (s.ramp.hcOver ≠ 0 → s.ramp.hcCount.toNat = 65535) &&
  decide (s.seq.engState ≠ .softStop → s.fbZeroCount.toNat < s.cfg.fbZeroCountMax.toNat) &&
  decide (s.rebal.zcOffset.toInt.natAbs ≤ s.cfg.zcOffsetMax.toNat) &&
  decide (s.satDet.reduceActive = false → s.satDet.reduceAmt = 0) &&
  decide (s.safe.safeCyclesLeft.toNat ≤ s.cfg.safeICycles.toNat) &&
  decide (s.drive.ovrLvlA = false ∧ s.drive.ovrLvlB = false) &&
  decide (s.drive.ovrEnA = true ∨ s.drive.ovrEnB = true) &&
  decide ((s.drive.pdcA = (if s.drive.ovrEnA then 0 else s.drive.dutyOut) ∧
    s.drive.pdcB = (if s.drive.ovrEnB then 0 else s.drive.dutyOut) ∧ (s.drive.ovrEnA = true → s.drive.ovrEnB = true → s.drive.dutyOut = 0))) &&
  decide (s.drive.dutyOut = 0 ∨ s.cfg.minDuty.toNat ≤ s.drive.dutyOut.toNat ∧
    s.drive.dutyOut.toNat ≤ s.cfg.flatTopDuty.toNat) &&
 
    decide (s.flags.feedbackReversed = true ∨ s.flags.outputShorted = true → s.seq.engState = .idle ∨ s.seq.engState = .softStop)

theorem engInv_of {s : State} (h : engOk s = true) : EngInv s := by
  simp only [engOk, Bool.and_eq_true, decide_eq_true_eq] at h
  obtain ⟨⟨⟨⟨⟨⟨⟨⟨⟨⟨⟨⟨⟨⟨⟨⟨⟨⟨⟨⟨⟨⟨⟨⟨a, b⟩, c⟩, d⟩, e⟩, e2⟩, f⟩, g⟩, i⟩, j⟩, k⟩, l⟩, m⟩, n⟩, o⟩, p⟩, z⟩, q⟩, r⟩, t⟩, u⟩, v⟩, w⟩, x⟩, y⟩ := h
  exact ⟨a, b, c, d, e, e2, f, g, i, j, k, l, m, n, o, p, z, q, r, t, u, v, w, x, y⟩

theorem ticking_of {s : State} (h : engOk s = true)
    (hc : s.cfg.valid = true ∧ s.seq.engState ≠ .idle ∧ s.ovl.state ≠ .shutdown) : ticking s :=
  ⟨hc.1, engInv_of h, hc.2⟩

/-- The conjuncts of `OvlInv`, as a test. -/
def ovlOk (s : State) : Bool := decide (
  (s.ovl.vdsThresholdActive = true ↔ s.ovl.state = .sustainedOverload ∨ s.ovl.state = .shutdown) ∧
  (s.ovl.state = .none → s.ovl.cycleCount = 0 ∧ s.ovl.resetCount = 0) ∧
  (s.ovl.state = .shortOverload → s.ovl.cycleCount.toNat < s.cfg.ovl.irmsTimeout.toNat) ∧
  (s.ovl.state = .sustainedOverload → s.ovl.cycleCount.toNat < s.cfg.ovl.vdsTimeout.toNat) ∧
  (s.ovl.state = .shutdown → s.ovl.cycleCount = s.cfg.ovl.vdsTimeout) ∧
  s.ovl.resetCount.toNat < s.cfg.ovl.resetCount.toNat ∧
  s.ovl.retryCount.toNat ≤ s.cfg.ovl.retryLockout.toNat ∧
  s.ovl.skipNextPulseCount.toNat ≤ s.cfg.ovl.skipPulses.toNat)

theorem ovlInv_of {s : State} (h : ovlOk s = true) : OvlInv s := by
  obtain ⟨a, b, c, d, e, f, g, i⟩ := of_decide_eq_true h
  exact ⟨a, b, c, d, e, f, g, i⟩

/-- The conjuncts of `ZcInv`, as a test. -/
def zcOk (c : ZcCfg) (z : ZcInst) : Bool := decide (
  z.outputting = locked z.zcState ∧
  (if posMeasured z.zcState then inBand c z.posCount = true else z.posCount = 0) ∧
  (if negMeasured z.zcState then inBand c z.negCount = true else z.negCount = 0) ∧
  (if confirming z.zcState then 1 ≤ z.confirmLeft.toNat ∧ z.confirmLeft.toNat ≤ c.zcConfirmTicks.toNat
    else z.confirmLeft = 0) ∧
  (z.zcState = .init → z.count = 0) ∧
  (waiting z.zcState = true → z.count.toNat ≤ c.phaseCountMax.toNat) ∧
  (locked z.zcState = true → z.count.toNat ≤ expectedLen z + c.winEnd.toNat) ∧
  (z.havePrev = true → z.histFill = 3))

theorem zcInv_of {c : ZcCfg} {z : ZcInst} (h : zcOk c z = true) : ZcInv c z := by
  obtain ⟨a, b, d, e, f, g, i, j⟩ := of_decide_eq_true h
  exact ⟨a, b, d, e, f, g, i, j⟩

/-! ### Witnesses: the hypotheses of each statement, met -/
theorem witness_ArithmeticIsExactThenSaturated : (1 : S32).toInt ≠ 0 ∧ (0 : S32).toInt = 0 := by decide

theorem witness_FixedPointLaws :
    (-32768 ≤ (-32768 : Int) ∧ (-32768 : Int) ≤ 32767) ∧ (-32768 ≤ (32767 : Int) ∧ (32767 : Int) ≤ 32767) ∧
    (-2147483647 : S32).toInt = -(2147483647 : S32).toInt ∧
    (((2147483647 : S32).toInt * (0x10000 : S32).toInt).tdiv 65536).natAbs ≤ 2147483647 := by decide

theorem witness_SquareRootIsTheFloorRoot :
    (0 : U32).toNat ≤ (0xFFFFFFFF : U32).toNat ∧
    (0xFFFE0001 : U32).toNat = (65535 : U16).toNat * (65535 : U16).toNat := by decide

theorem witness_BatteryScalingCompensates :
    (512 : U16).toNat ≤ Cfg.fix8.vbattNominal.toNat ∧ Cfg.fix8.vbattNominal.toNat ≤ (512 : U16).toNat ∧
    (0 : U16).toNat ≤ Cfg.fix8.vbattNominal.toNat ∧ Cfg.fix8.vbattNominal.toNat ≤ (65535 : U16).toNat := by decide

theorem witness_DecodeUndoesEncode : Instr.stop.format = .cmd8 ∧ Instr.clrOutShorted.format = .ctrl32 := by decide

theorem witness_StepRunsTheLatchedCommand :
    (latched 0).cfg.valid = true ∧ decodeCmd (latched 0).cmdLatch = .ok .none ∧
    (latched 6).cfg.valid = true ∧ decodeCmd (latched 6).cmdLatch = .ok .stop := by decide

theorem witness_StepRunsTheControlWord :
    State.reset.cfg.valid = true ∧ decodeWrite 0x28 1 = .ok [.ovlReset] ∧ Instr.ovlReset.format = .ctrl32 ∧
    decodeWrite 0x3C 3 = .ok [.zcStopChg, .zcStopInv] := by decide

theorem witness_ReservedCodeIsDiscarded :
    (latched 7).cfg.valid = true ∧ 7 ≤ (latched 7).cmdLatch.toNat ∧ 7 ≤ (latched 0xFF).cmdLatch.toNat ∧
    ∃ t, step (withEvents (latched 7) [(⟨0, 0, 0, 0⟩ : EngIn).event]) = .next t :=
  ⟨by decide, by decide, by decide, let ⟨t, h, _⟩ := out_next (p := fun _ => true) (by decide +kernel); ⟨t, h⟩⟩

/-- For the statements whose one premise is a valid record: CommandWriteFillsOnlyTheLatch,
ControlRegistersActOnTheirBits, StatusBits, RegisterFields, HwResetClearsAllState, RegistersAfterReset,
ResetMeetsTheInvariant. -/
theorem witness_valid_record : State.reset.cfg.valid = true ∧ Cfg.fix8.valid = true := by decide

theorem witness_OtherAccessesDoNothing :
    let c : Cfg := { Cfg.fix8 with regBase := 4096 }
    c.valid = true ∧ 1 ≠ 4 ∧ 4095 < c.regBase ∧ (4098 - c.regBase) % 4 ≠ 0 ∧
    0x80000 ≤ 4096 + 0x80000 - c.regBase ∧ 4096 + 8 - c.regBase ∉ [0x00, 0x04, 0x28, 0x3C] ∧
    4096 + 0x7C - c.regBase ∈ [0x28, 0x3C, 0x7C] ∧
    (0x8C ≤ 4096 + 0x8C - c.regBase ∧ 4096 + 0x8C - c.regBase < 0x400) ∧
    (0x800 ≤ 4096 + 0x3FFFC - c.regBase ∧ 4096 + 0x3FFFC - c.regBase < 0x40000) := by decide

theorem witness_reset_inv : EngInv State.reset ∧ OvlInv State.reset ∧
    (∀ j, ZcInv (zcCfg State.reset.cfg j) (getZc State.reset j)) ∧ RampInv State.reset :=
  ⟨engInv_of (by decide +kernel), ovlInv_of (by decide), fun j => by
    cases j
    · exact zcInv_of (by decide)
    · exact zcInv_of (by decide), ⟨fun h => (nomatch h), fun h => (nomatch h)⟩⟩

theorem witness_IndexedWindows :
    State.reset.cfg.valid = true ∧ EngInv State.reset ∧ 255 < 256 ∧ State.reset.cfg.fbDelay ≤ 255 ∧
    65535 < 65536 ∧ State.reset.cfg.n ≤ 65535 :=
  ⟨by decide, witness_reset_inv.1, by decide, by decide, by decide, by decide⟩

theorem witness_RegistersAfterReset : 0 < 0x20000 ∧ 0x1FFFF < 0x20000 ∧ 0x38 / 4 < 0x20000 := by decide

theorem witness_IdleTickOnlyHoldsTheOutputsOff :
    State.reset.seq.engState = .idle ∧ EngInv State.reset := ⟨rfl, witness_reset_inv.1⟩

theorem witness_CommandsWaitOrAreDiscarded :
    Instr.softStart ∈ waitingCommands ∧ Instr.softStop ∈ waitingCommands ∧
    (eng .softStop .negative 7).seq.engState = .softStop ∧
    ((eng .normal .negative 0).seq.engState = .normal ∧
      ¬ ((eng .normal .negative 0).seq.phase = .positive ∧ (eng .normal .negative 0).seq.idx = 0)) ∧
    ((eng .normal .positive 0).seq = ⟨.normal, .positive, 0⟩ ∧ (eng .normal .positive 0).ovl.state ≠ .shutdown ∧
      Instr.softStart ≠ .softStop) ∧
    (withOvl ⟨true, 0, .shutdown, 5, 0, 0, false⟩).seq.engState = .idle ∧
    (withOvl ⟨true, 0, .shutdown, 5, 0, 0, false⟩).ovl.state = .shutdown := by decide

/-- For SoftStartAndPingFirstTick and StartEntersNormalDirectly. -/
theorem witness_start_allowed :
    State.reset.cfg.valid = true ∧ EngInv State.reset ∧ State.reset.seq.engState = .idle ∧
    State.reset.flags.feedbackReversed = false ∧ State.reset.flags.outputShorted = false ∧
    State.reset.ovl.state ≠ .shutdown := ⟨by decide, witness_reset_inv.1, rfl, rfl, rfl, by decide⟩

theorem witness_SoftStopAtTheStartOfACycle :
    ticking (eng .normal .positive 0) ∧ (eng .normal .positive 0).seq = ⟨.normal, .positive, 0⟩ :=
  ⟨ticking_of (by decide +kernel) (by decide), rfl⟩

theorem witness_ShutdownForcesTheStop :
    let s := { eng .normal .negative 7 with ovl := ⟨true, 0, .shutdown, 5, 0, 0, false⟩ }
    Instr.softStop ∈ commands ∧ Instr.softStop ≠ .reset ∧ Instr.softStop ≠ .stop ∧ s.ovl.state = .shutdown ∧
    s.seq.engState ≠ .idle := by decide

/-- For CommandsTouchOnlyTheEngine: the tick that uses up a skip. -/
theorem witness_CommandsTouchOnlyTheEngine :
    Instr.none ∈ commands ∧ ∃ t, exec .none { eng .normal .positive 3 with
      ovl := ⟨false, 1, .none, 0, 0, 0, true⟩ } = .next t ∧ t.ovl.skipNextPulseCount = 0 :=
  ⟨by decide,
   let ⟨t, h, k⟩ := out_next (p := fun t => decide (t.ovl.skipNextPulseCount = 0)) (by decide +kernel)
   ⟨t, h, of_decide_eq_true k⟩⟩

/-- The three open-loop states, at the first and the last index inside the half-cycle, the peak among them
with the test failing and passing. -/
theorem witness_OpenLoopTick :
    (ticking (eng .softStart .negative 0) ∧ (eng .softStart .negative 0).seq.engState ≠ .normal ∧
      (eng .softStart .negative 0).seq.idx.toNat + 1 < 8) ∧
    (ticking (eng .softStop .positive 6) ∧ (eng .softStop .positive 6).seq.idx.toNat + 1 < 8) ∧
    (ticking { eng .softStart .positive 4 with ports.fbIn := -11 } ∧
      reversedNow { eng .softStart .positive 4 with ports.fbIn := -11 }) ∧
    ¬ reversedNow { eng .softStart .positive 4 with ports.fbIn := -10 } :=
  ⟨⟨ticking_of (by decide +kernel) (by decide), by decide, by decide⟩,
   ⟨ticking_of (by decide +kernel) (by decide), by decide⟩,
   ⟨ticking_of (by decide +kernel) (by decide), ⟨rfl, rfl, by decide⟩⟩,
   fun h => absurd h.2.2 (by decide)⟩

/-- The near-zero test at its limit: the third peak below the band fails, a sample of 10 passes. -/
theorem witness_ClosedLoopTick :
    (ticking { eng .normal .positive 4 with fbZeroCount := 2 } ∧
      shortedNow { eng .normal .positive 4 with fbZeroCount := 2 } ∧
      (eng .normal .positive 4).seq.idx.toNat + 1 < 8) ∧
    ¬ shortedNow { eng .normal .positive 4 with fbZeroCount := 2, ports.fbIn := 10 } :=
  ⟨⟨ticking_of (by decide +kernel) (by decide), ⟨rfl, rfl, by decide⟩, by decide⟩,
   fun h => absurd h.2.2 (by decide)⟩

/-- A machine of FIX8 in NORMAL whose window is as given. -/
def flatAt (active : Bool) (endIdx idx : U16) (mult : U16) : State :=
  { eng .normal .positive idx with
    ramp := ⟨mult, 200, 0, 0, 0⟩, flatTop := ⟨active, endIdx⟩, pid := ⟨0, 0, 950⟩, fbDly := [0] }

/-- The four clauses: a window opened at the last index N/2 it may, one in force, one at its end, none
open on the falling side. -/
theorem witness_FlatTopWindow :
    (ticking (flatAt false 0 4 960) ∧ ∃ t, exec .none (flatAt false 0 4 960) = .next t ∧
      t.seq.engState = .normal ∧ t.flatTop.active = true) ∧
    (ticking (flatAt true 5 4 800) ∧ (flatAt true 5 4 800).seq.idx.toNat < (flatAt true 5 4 800).flatTop.endIdx.toNat ∧
      ∃ t, exec .none (flatAt true 5 4 800) = .next t ∧ t.seq.engState = .normal ∧ t.flatTop.active = true) ∧
    (ticking (flatAt true 5 5 800) ∧ (flatAt true 5 5 800).flatTop.endIdx.toNat ≤ (flatAt true 5 5 800).seq.idx.toNat ∧
      8 < 2 * (flatAt true 5 5 800).seq.idx.toNat ∧
      ∃ t, exec .none (flatAt true 5 5 800) = .next t ∧ t.seq.engState = .normal) ∧
    (ticking (flatAt false 0 5 960) ∧ ∃ t, exec .none (flatAt false 0 5 960) = .next t ∧ t.seq.engState = .normal) := by
  have go : ∀ (s : State) (b : Bool), outIs (fun t => decide (t.seq.engState = .normal) && t.flatTop.active == b)
      (exec .none s) = true → ∃ t, exec .none s = .next t ∧ t.seq.engState = .normal ∧ t.flatTop.active = b := by
    intro s b h
    obtain ⟨t, h1, h2⟩ := out_next h
    simp only [Bool.and_eq_true, decide_eq_true_eq, beq_iff_eq] at h2
    exact ⟨t, h1, h2⟩
  refine ⟨⟨ticking_of (by decide +kernel) (by decide), go _ true (by decide +kernel)⟩,
    ⟨ticking_of (by decide +kernel) (by decide), by decide, go _ true (by decide +kernel)⟩,
    ⟨ticking_of (by decide +kernel) (by decide), by decide, by decide, ?_⟩,
    ⟨ticking_of (by decide +kernel) (by decide), ?_⟩⟩
  · obtain ⟨t, h1, h2, -⟩ := go (flatAt true 5 5 800) false (by decide +kernel)
    exact ⟨t, h1, h2⟩
  · obtain ⟨t, h1, h2, -⟩ := go (flatAt false 0 5 960) false (by decide +kernel)
    exact ⟨t, h1, h2⟩

/-- A machine of FIX8 at the last index of that half-cycle with that half-cycle count and multiplier. -/
def lastIn (p : Phase) (e : EngState) (hc mult : U16) : State := { eng e p 7 with ramp := ⟨mult, 200, hc, 0, 0⟩ }

/-- The last index of POSITIVE. -/
def lastIdx (e : EngState) (hc mult : U16) : State := lastIn .positive e hc mult

/-- Each way the tick of the last index can go: NORMAL, a soft start that goes on, one that hands over, a ping
and a ramp-down that go on and that end, at the end of either half-cycle, with the state they lead to. -/
theorem witness_HalfCycleBoundary :
    ∀ p : Phase, ∀ x ∈ [(lastIn p .normal 0 800, EngState.normal), (lastIn p .softStart 0 200, .softStart),
        (lastIn p .softStart 3 800, .normal), (lastIn p .ping 0 200, .ping), (lastIn p .ping 3 200, .idle),
        (lastIn p .softStop 0 400, .softStop), (lastIn p .softStop 0 200, .idle)],
      ticking x.1 ∧ x.1.seq.idx.toNat + 1 = x.1.cfg.n ∧
        ∃ t, exec .none x.1 = .next t ∧ t.seq.engState = x.2 := by
  have go : ∀ x : State × EngState, (engOk x.1 &&
      decide (x.1.cfg.valid = true ∧ x.1.seq.engState ≠ .idle ∧ x.1.ovl.state ≠ .shutdown) &&
      decide (x.1.seq.idx.toNat + 1 = x.1.cfg.n) &&
      outIs (fun t => decide (t.seq.engState = x.2)) (exec .none x.1)) = true →
      ticking x.1 ∧ x.1.seq.idx.toNat + 1 = x.1.cfg.n ∧
        ∃ t, exec .none x.1 = .next t ∧ t.seq.engState = x.2 := by
    intro x h
    simp only [Bool.and_eq_true, decide_eq_true_eq] at h
    obtain ⟨⟨⟨a, b⟩, c⟩, d⟩ := h
    obtain ⟨t, ht, k⟩ := out_next d
    exact ⟨ticking_of a b, c, t, ht, of_decide_eq_true k⟩
  intro p x hx
  simp only [List.mem_cons, List.not_mem_nil, or_false] at hx
  cases p <;> rcases hx with h | h | h | h | h | h | h <;> (subst h; exact go _ (by decide +kernel))

/-- A ping of 80000 half-cycles at the last index, `beyond` half-cycles beyond 65535. -/
def longPing (beyond : U16) : State :=
  { eng .ping .positive 7 with
    cfg := { Cfg.fix8 with pingRampHc := 40000 }, ramp := ⟨200, 200, 65535, 0, beyond⟩ }

/-- The clauses at the counts where they meet: the third and fourth half-cycle of a soft start, half-cycle 1,
2 and 4 of a ping of 4, half-cycles 65536, 79999 and 80000 of a ping of 80000, a ramp-down with one increment
and one more left. -/
theorem witness_RampsAtTheBoundary :
    ∀ s ∈ [lastIdx .softStart 2 600, lastIdx .softStart 3 800, lastIdx .ping 0 200, lastIdx .ping 1 400,
        lastIdx .ping 2 400, lastIdx .ping 3 200, lastIdx .softStop 0 200, lastIdx .softStop 0 201,
        longPing 0, longPing 14463, longPing 14464],
      ticking s ∧ s.seq.idx.toNat + 1 = s.cfg.n ∧ ¬ reversedNow s ∧ ∃ t, exec .none s = .next t := by
  have go : ∀ s, (engOk s && decide (s.cfg.valid = true ∧ s.seq.engState ≠ .idle ∧ s.ovl.state ≠ .shutdown) &&
      decide (s.seq.idx.toNat + 1 = s.cfg.n) && decide (¬ s.seq.idx.toNat = s.cfg.n / 2) &&
      outIs (fun _ => true) (exec .none s)) = true →
      ticking s ∧ s.seq.idx.toNat + 1 = s.cfg.n ∧ ¬ reversedNow s ∧ ∃ t, exec .none s = .next t := by
    intro s h
    simp only [Bool.and_eq_true, decide_eq_true_eq] at h
    obtain ⟨⟨⟨⟨a, b⟩, c⟩, d⟩, e⟩ := h
    obtain ⟨t, ht, -⟩ := out_next e
    exact ⟨ticking_of a b, c, fun r => d r.2.1, t, ht⟩
  intro s hs
  simp only [List.mem_cons, List.not_mem_nil, or_false] at hs
  rcases hs with h | h | h | h | h | h | h | h | h | h | h <;> (subst h; exact go _ (by decide +kernel))

/-- The last index of a table of two entries is the peak, and this sample is of the wrong sign. -/
def reversedAtTheEnd : State :=
  { eng .softStart .positive 1 with
    cfg := { Cfg.fix8 with n := 2, table := [0x10000, 0x10000], satTailStart := 2 }, ports.fbIn := -100 }

theorem witness_RampsAtTheBoundary_reversed :
    ticking reversedAtTheEnd ∧ reversedAtTheEnd.seq.idx.toNat + 1 = reversedAtTheEnd.cfg.n ∧
      reversedNow reversedAtTheEnd ∧ ∃ t, exec .none reversedAtTheEnd = .next t :=
  ⟨ticking_of (by decide +kernel) (by decide), by decide, ⟨rfl, by unfold atPeak; decide, by decide⟩,
    let ⟨t, h, _⟩ := out_next (p := fun _ => true) (by decide +kernel)
    ⟨t, h⟩⟩

/-- 70 R463: a ping of 80000 half-cycles is still one at 79999 and over at 80000; `hc_count` stays full. -/
theorem test_long_ping :
    after (longPing 14463) (.engTick 0 0 512 0)
        (fun t => t.seq.engState = .ping ∧ t.ramp.hcCount = 65535 ∧ t.ramp.multiplier = 0) = true ∧
      after (longPing 14464) (.engTick 0 0 512 0)
        (fun t => t.seq.engState = .idle ∧ t.ramp.hcCount = 0 ∧ t.pulses.halfCycle) = true := by decide +kernel

/-- The end of a full cycle in NORMAL with a window of 2 left and the sums of `pos` in the first half. -/
def cycleEnd (halves : U2) (pos tail : U32) : State :=
  { eng .normal .negative 7 with
    ramp := ⟨200, 200, 0, halves, 0⟩, safe := ⟨true, 2⟩, rebal := ⟨pos, 0, 0, 0⟩, satDet := ⟨tail, 0, 0, false, .positive, 0⟩ }

theorem witness_FullCycleInNormal :
    ∀ s ∈ [cycleEnd 0 0 0, cycleEnd 1 1000 101, cycleEnd 2 0 0],
      ticking s ∧ s.seq.engState = .normal ∧ ¬ shortedNow s ∧ s.seq.phase = .negative ∧
      s.seq.idx.toNat + 1 = s.cfg.n ∧ ∃ t, exec .none s = .next t := by
  have go : ∀ s, (engOk s && decide (s.cfg.valid = true ∧ s.seq.engState ≠ .idle ∧ s.ovl.state ≠ .shutdown) &&
      decide (s.seq.engState = .normal ∧ s.seq.phase = .negative ∧ s.seq.idx.toNat + 1 = s.cfg.n) &&
      decide (¬ s.seq.idx.toNat = s.cfg.n / 2) && outIs (fun _ => true) (exec .none s)) = true →
      ticking s ∧ s.seq.engState = .normal ∧ ¬ shortedNow s ∧ s.seq.phase = .negative ∧
      s.seq.idx.toNat + 1 = s.cfg.n ∧ ∃ t, exec .none s = .next t := by
    intro s h
    simp only [Bool.and_eq_true, decide_eq_true_eq] at h
    obtain ⟨⟨⟨⟨a, b⟩, c⟩, d⟩, f⟩ := h
    obtain ⟨t, ht, -⟩ := out_next f
    exact ⟨ticking_of a b, c.1, fun r => d r.2.1, c.2.1, c.2.2, t, ht⟩
  intro s hs
  simp only [List.mem_cons, List.not_mem_nil, or_false] at hs
  rcases hs with h | h | h <;> (subst h; exact go _ (by decide +kernel))

theorem witness_GainChangesOnlyBetweenCycles :
    Instr.softStop ∈ commands ∧ ticking (eng .normal .positive 0) ∧
    ∃ t, exec .softStop (eng .normal .positive 0) = .next t ∧ t.seq.engState ≠ .idle ∧
      t.pulses.fullCycle = false ∧ ¬ ((eng .normal .positive 0).seq.engState = .softStart ∧ t.seq.engState = .normal) :=
  ⟨by decide, ticking_of (by decide +kernel) (by decide),
   let ⟨t, h, k⟩ := out_next (p := fun t => decide (t.seq.engState ≠ .idle ∧ t.pulses.fullCycle = false))
     (by decide +kernel)
   ⟨t, h, (of_decide_eq_true k).1, (of_decide_eq_true k).2, fun a => nomatch a.1⟩⟩

/-- For ClampTick: rect 400 and 401 at the loose threshold, with and without a valid average. -/
theorem witness_ClampTick :
    State.reset.cfg.valid = true ∧ ¬ State.reset.cfg.ovl.imeasThreshold.toNat < (((912 : U16).toNat : Int) -
      State.reset.cfg.ovl.iZeroNominal.toNat).natAbs ∧
    State.reset.cfg.ovl.imeasThreshold.toNat < (((701 : U16).toNat : Int) - (300 : U16).toNat).natAbs := by decide

/-- Each state and each exit of the table R380, at the count where it is taken and one before. -/
theorem witness_EscalationStep :
    ∀ o ∈ [(⟨false, 0, .none, 0, 0, 1, true⟩ : OvlGroup), ⟨false, 0, .none, 0, 0, 10, false⟩,
        ⟨false, 0, .shortOverload, 1, 1, 0, false⟩, ⟨false, 0, .shortOverload, 2, 0, 0, true⟩,
        ⟨true, 2, .sustainedOverload, 3, 1, 5, false⟩, ⟨true, 0, .sustainedOverload, 4, 0, 5, false⟩,
        ⟨true, 0, .shutdown, 5, 1, 0, false⟩],
      (withOvl o).cfg.valid = true ∧ OvlInv (withOvl o) := by
  intro o ho
  simp only [List.mem_cons, List.not_mem_nil, or_false] at ho
  rcases ho with h | h | h | h | h | h | h <;> (subst h; exact ⟨by decide, ovlInv_of (by decide)⟩)

/-- FIX8 with each timeout 1. -/
def quick : Cfg := { Cfg.fix8 with ovl.irmsTimeout := 1, ovl.vdsTimeout := 1 }

/-- (a) An episode at each of its boundaries; (b) a run from `hw_reset` into SHUTDOWN, other events among
it. -/
theorem witness_ShutdownTakesBothPhases :
    (State.reset.cfg.valid = true ∧ State.reset.ovl.state = .none ∧ State.reset.ovl.retryCount = 0 ∧
      State.reset.cfg.ovl.rmsThreshold.toNat < (101 : U16).toNat) ∧
    quick.valid = true ∧
    ∃ t, runs (State.resetWith quick) [.zcTask 101, .sampleTick 913 0 false, .zcTask 101, .zcTask 0] = .next t ∧
      t.ovl.state = .shutdown := by
  refine ⟨⟨by decide, rfl, rfl, by decide⟩, by decide, ?_⟩
  have h : outIs (fun t => decide (t.ovl.state = .shutdown))
      (runs (State.resetWith quick) [.zcTask 101, .sampleTick 913 0 false, .zcTask 101, .zcTask 0]) = true := by
    decide +kernel
  obtain ⟨t, h1, h2⟩ := out_next h
  exact ⟨t, h1, of_decide_eq_true h2⟩

/-- Neither exit, and the exit by OVL_RESET. -/
theorem witness_ShutdownIsLeftOnlyByReset :
    let s := withOvl ⟨true, 0, .shutdown, 5, 0, 0, false⟩
    s.ovl.state = .shutdown ∧ s.seq.engState = .idle ∧
    (∃ t, step (withEvents s [.zcTask 0]) = .next t ∧ t.ovl.state = .shutdown) ∧
    (∃ t, step (withEvents s [.busWrite 0x28 4 1]) = .next t ∧ t.ovl.state = .none) :=
  ⟨rfl, rfl,
   let ⟨t, h, k⟩ := out_next (p := fun t => decide (t.ovl.state = .shutdown)) (by decide +kernel)
   ⟨t, h, of_decide_eq_true k⟩,
   let ⟨t, h, k⟩ := out_next (p := fun t => decide (t.ovl.state = .none)) (by decide +kernel)
   ⟨t, h, of_decide_eq_true k⟩⟩

theorem witness_FilterFillsBeforeAnyCrossing :
    State.reset.cfg.valid = true ∧ State.reset.zcInv.stopReq = false ∧
    (getZc State.reset .inv).histFill.toNat < 2 ∧
    2 ≤ (getZc (withInv { ZcInst.reset with histFill := 2 }) .inv).histFill.toNat ∧
    (getZc (withInv { ZcInst.reset with histFill := 2 }) .inv).havePrev = false := by decide

/-- A crossing (the average reaches the threshold exactly) and none (one code below). -/
theorem witness_InitWaitsForACrossing :
    zcReady (zcAt .init 0 0 0 511) ∧ crossesUp ZcCfg.fix8 (zcAt .init 0 0 0 511) 514 ∧
    ¬ crossesUp ZcCfg.fix8 (zcAt .init 0 0 0 511) 513 :=
  ⟨⟨rfl, rfl, rfl⟩, ⟨by decide, by decide⟩, fun h => absurd h.2 (by decide)⟩

/-- Each rule of a WAIT state: a length at the ends of the band and the tolerance, one outside each, and the
count at PHASE_COUNT_MAX and above it without a crossing. -/
theorem witness_WaitStates :
    (zcReady (zcAt .posWaitNeg1 5 0 0 512) ∧ crossesDown ZcCfg.fix8 (zcAt .posWaitNeg1 5 0 0 512) 511 ∧
      bandOk ZcCfg.fix8 (measured (zcAt .posWaitNeg1 5 0 0 512))) ∧
    (crossesUp ZcCfg.fix8 (zcAt .negWaitPos1 12 8 0 511) 514 ∧
      ¬ (bandOk ZcCfg.fix8 (measured (zcAt .negWaitPos1 12 8 0 511)) ∧ True)) ∧
    (bandOk ZcCfg.fix8 (measured (zcAt .posWaitNeg2 8 8 8 512)) ∧
      ((measured (zcAt .posWaitNeg2 8 8 8 512) : Int) - (8 : U16).toNat).natAbs ≤ ZcCfg.fix8.zcMatchTol.toNat) ∧
    (¬ crossesUp ZcCfg.fix8 (zcAt .negWaitPos2 11 8 8 511) 513 ∧
      measured (zcAt .negWaitPos2 11 8 8 511) ≤ ZcCfg.fix8.phaseCountMax.toNat) ∧
    ZcCfg.fix8.phaseCountMax.toNat < measured (zcAt .negWaitPos2 12 8 8 511) :=
  ⟨⟨⟨rfl, rfl, rfl⟩, ⟨by decide, by decide⟩, ⟨by decide, by decide⟩⟩,
   ⟨⟨by decide, by decide⟩, fun h => absurd h.1.2 (by decide)⟩, ⟨⟨by decide, by decide⟩, by decide⟩,
   ⟨fun h => absurd h.2 (by decide), by decide⟩, by decide⟩

/-- Each rule of a locked state at the edges of the window [6, 10] around 8: counts 5 and 6 (a small and a
large spike), 10 and 11. -/
theorem witness_LockedStates :
    (∀ z ∈ [zcAt .posDetectOc 4 8 8 512, zcAt .confirmNegPos 5 8 8 512, zcAt .confirmPosNeg 9 8 8 511,
        zcAt .negDetectOc 10 8 8 511],
      State.reset.cfg.valid = true ∧ zcReady z ∧ ZcInv ZcCfg.fix8 z ∧ locked z.zcState = true) ∧
    crossesDown ZcCfg.fix8 (zcAt .posDetectOc 4 8 8 512) 511 ∧
    measured (zcAt .posDetectOc 4 8 8 512) + ZcCfg.fix8.winStart.toNat < 8 ∧
    ¬ ZcCfg.fix8.zcSpikeTol.toNat < (((412 : U16).toNat : Int) - ZcCfg.fix8.zcThreshold.toNat).natAbs ∧
    ZcCfg.fix8.zcSpikeTol.toNat < (((411 : U16).toNat : Int) - ZcCfg.fix8.zcThreshold.toNat).natAbs ∧
    ¬ measured (zcAt .confirmNegPos 5 8 8 512) + ZcCfg.fix8.winStart.toNat < 8 ∧
    crossesUp ZcCfg.fix8 (zcAt .confirmPosNeg 9 8 8 511) 514 ∧
    measured (zcAt .confirmPosNeg 9 8 8 511) ≤ 8 + ZcCfg.fix8.winEnd.toNat ∧
    bandOk ZcCfg.fix8 (measured (zcAt .confirmPosNeg 9 8 8 511)) ∧
    ¬ crossesUp ZcCfg.fix8 (zcAt .negDetectOc 10 8 8 511) 513 ∧
    8 + ZcCfg.fix8.winEnd.toNat < measured (zcAt .negDetectOc 10 8 8 511) := by
  refine ⟨?_, ⟨by decide, by decide⟩, by decide, by decide, by decide, by decide, ⟨by decide, by decide⟩,
    by decide, ⟨by decide, by decide⟩, fun h => absurd h.2 (by decide), by decide⟩
  intro z hz
  simp only [List.mem_cons, List.not_mem_nil, or_false] at hz
  rcases hz with h | h | h | h <;>
    (subst h; exact ⟨by decide, ⟨rfl, rfl, rfl⟩, zcInv_of (by decide), by decide⟩)

theorem zcTicksTo_of {s : State} {j : ZcId} {ac : U16} {z : ZcInst} {p : ZcPulses} (hv : s.cfg.valid = true)
    (h : zcTick (zcCfg s.cfg j) ac (getZc s j) = (z, p)) : zcTicksTo s j ac z p := by
  intro rest
  have hv' : (withEvents s (.zcTick j ac :: rest)).cfg.valid = true := hv
  rw [Laws.step_zcTick hv' rfl, ← h]
  cases j <;> rfl

/-- A stop requested in a locked state, and the tick that takes it. -/
theorem witness_StopWaitsForTheTick :
    (withInv (zcAt .posDetectOc 6 8 8 600)).cfg.valid = true ∧
    zcTicksTo (withInv { zcAt .posDetectOc 6 8 8 600 with stopReq := true }) .inv 600
      (zcAt .init 0 0 0 600) ZcPulses.zero :=
  ⟨by decide, zcTicksTo_of (by decide) (by decide)⟩

theorem witness_InstancesAreIndependent :
    (∃ s', step (withEvents State.reset [.zcTick .inv 600]) = .next s') ∧
    (∃ u', step (withEvents (eng .normal .positive 3) [.zcTick .inv 600]) = .next u') ∧
    getZc State.reset .inv = getZc (eng .normal .positive 3) .inv ∧
    zcCfg State.reset.cfg .inv = zcCfg (eng .normal .positive 3).cfg .inv ∧ ZcId.chg ≠ .inv ∧
    (∃ t, step (withEvents State.reset [.pwmTick .charger 0 0 0 0 600]) = .next t) ∧
    Handler.charger ≠ (if ZcId.inv = .chg then .charger else .inverter) :=
  ⟨⟨_, rfl⟩, ⟨_, rfl⟩, rfl, rfl, by decide, ⟨_, rfl⟩, by decide⟩

/-- For the statements over any step that answers a next state: ParametersNeverChange, EngineStaysSafe,
MultiplierStaysOnItsRamp, OverloadStaysBounded, SavedLengthsStayInTheBand and EveryStepCompletes. -/
theorem witness_invariants :
    Inv State.reset ∧ (∃ t, step (withEvents (latched 2) [(⟨0, 0, 512, 0⟩ : EngIn).event]) = .next t) ∧
    EngInv (latched 2) ∧ RampInv (latched 2) ∧
    (EngInv (eng .softStart .positive 7) ∧ RampInv (eng .softStart .positive 7)) ∧
    (EngInv (eng .ping .negative 7) ∧ RampInv (eng .ping .negative 7)) ∧
    EngInv { eng .softStop .positive 5 with pid := ⟨0, 400, 950⟩, fbZeroCount := 3 } :=
  ⟨⟨by decide, witness_reset_inv.1, witness_reset_inv.2.2.2, witness_reset_inv.2.1, witness_reset_inv.2.2.1 .chg,
     witness_reset_inv.2.2.1 .inv⟩,
   let ⟨t, h, _⟩ := out_next (p := fun _ => true) (by decide +kernel); ⟨t, h⟩,
   engInv_of (by decide +kernel), ⟨fun h => (nomatch h), fun h => (nomatch h)⟩,
   ⟨engInv_of (by decide +kernel), ⟨fun _ => by decide, fun h => nomatch h⟩⟩,
   ⟨engInv_of (by decide +kernel), ⟨fun h => (nomatch h), fun _ => by decide⟩⟩, engInv_of (by decide +kernel)⟩

theorem witness_OtherHandlersFreezeTheEngine :
    State.reset.cfg.valid = true ∧ Handler.charger ≠ .inverter ∧ Handler.bootCharge ≠ .inverter := by decide

/-- An event of no group, and one of each group that a clause excepts. -/
theorem witness_SingleWriter :
    (∃ t, step (withEvents State.reset [.busRead 0 4]) = .next t) ∧
    (∃ t, step (withEvents State.reset [.sampleTick 913 0 false]) = .next t) ∧
    (∃ t, step (withEvents State.reset [.zcTick .inv 600]) = .next t) ∧
    (∃ t, step (withEvents State.reset [.busWrite 0 4 2]) = .next t) ∧ Event.busRead 0 4 ≠ .hwReset ∧
    (∀ fb vb vt rm, Event.busRead 0 4 ≠ .engTick fb vb vt rm) ∧
    (∀ h fb vb vt rm ac, Event.busRead 0 4 ≠ .pwmTick h fb vb vt rm ac) ∧
    (∀ i a v, Event.busRead 0 4 ≠ .sampleTick i a v) ∧ (∀ addr n v, Event.busRead 0 4 ≠ .busWrite addr n v) ∧
    (∀ j ac, Event.busRead 0 4 ≠ .zcTick j ac) ∧ (∀ r, Event.busRead 0 4 ≠ .zcTask r) :=
  ⟨⟨_, rfl⟩, ⟨_, rfl⟩, ⟨_, rfl⟩, ⟨_, rfl⟩, by decide, by simp, by simp, by simp, by simp, by simp, by simp⟩

theorem witness_FaultFlagsAreSticky :
    (∃ t, step (withEvents { State.reset with flags := ⟨true, true⟩ } [.busWrite 0x04 4 0x18]) = .next t ∧
      t.flags.feedbackReversed = false ∧ t.flags.outputShorted = false) ∧
    ∃ t, step (withEvents { State.reset with flags := ⟨true, true⟩ } [.hwReset]) = .next t ∧
      t.flags.feedbackReversed = false ∧ t.flags.outputShorted = false :=
  ⟨⟨_, rfl, rfl, rfl⟩, ⟨_, rfl, rfl, rfl⟩⟩

/-- A tick that changes the state. -/
theorem witness_EngineTransitions :
    EngInv (latched 2) ∧ ∃ t, step (withEvents (latched 2) [(⟨0, 0, 512, 0⟩ : EngIn).event]) = .next t ∧
      t.seq.engState ≠ (latched 2).seq.engState :=
  ⟨engInv_of (by decide +kernel),
   let ⟨t, h, k⟩ := out_next (p := fun t => decide (t.seq.engState ≠ (latched 2).seq.engState)) (by decide +kernel)
   ⟨t, h, of_decide_eq_true k⟩⟩

theorem witness_OffsetIsReadByNothing :
    (∀ a n, Event.zcTask 0 ≠ .busRead a n) ∧ (∃ t, step (withEvents State.reset [.zcTask 0]) = .next t) ∧
    ∃ u, step (withEvents { State.reset with rebal.zcOffset := 5 } [.zcTask 0]) = .next u :=
  ⟨by simp, ⟨_, rfl⟩, ⟨_, rfl⟩⟩

/-- The smallest table and the shortest ramp: two ticks from IDLE to NORMAL. -/
def tiny : Cfg := { Cfg.fix8 with n := 2, table := [0x8000, 0x8000], satTailStart := 2, softStartCycles := 1 }

theorem witness_ResetIsIdempotentAndColdStart :
    (State.reset.cfg.valid = true ∧ (1 : U32) = 1) ∧
    (let s := { State.resetWith tiny with cmdLatch := 2 }
     s.cfg.valid = true ∧ EngInv s ∧ s.seq.engState = .idle ∧ s.cmdLatch = 0x02 ∧
     s.flags.feedbackReversed = false ∧ s.flags.outputShorted = false ∧ s.ovl.state ≠ .shutdown ∧
     ([⟨0, 0, 512, 0⟩] : List EngIn).length + 1 = s.cfg.n * s.cfg.softStartCycles.toNat ∧
     ∃ t, runs s (([⟨0, 0, 512, 0⟩] ++ [⟨0, 0, 600, 0⟩] : List EngIn).map EngIn.event) = .next t ∧
       t.flags.feedbackReversed = false) :=
  ⟨by decide, by decide, engInv_of (by decide +kernel), rfl, rfl, rfl, rfl, by decide, by decide,
   let ⟨t, h, k⟩ := out_next (p := fun t => decide (t.flags.feedbackReversed = false)) (by decide +kernel)
   ⟨t, h, of_decide_eq_true k⟩⟩

/-- One tick before the end and at it, and a multiplier of 0. -/
theorem witness_RampDownEnds :
    (let s := eng .softStop .positive 6
     s.cfg.valid = true ∧ EngInv s ∧ s.seq.engState = .softStop ∧ s.cmdLatch = 0 ∧ s.ovl.state ≠ .shutdown ∧
     max 1 ((s.ramp.multiplier.toNat + s.ramp.rampInc.toNat - 1) / s.ramp.rampInc.toNat) * s.cfg.n
       - s.seq.idx.toNat = 2) ∧
    EngInv { eng .softStop .positive 6 with ramp := ⟨0, 200, 0, 0, 0⟩ } ∧
    ([⟨0, 0, 0, 0⟩] : List EngIn).length < 2 ∧ 2 ≤ ([⟨0, 0, 0, 0⟩, ⟨1, 0, 0, 0⟩] : List EngIn).length :=
  ⟨⟨by decide, engInv_of (by decide +kernel), rfl, rfl, by decide, by decide⟩, engInv_of (by decide +kernel),
   by decide, by decide⟩

theorem witness_PingEndsByItself :
    let s := latched 4
    s.cfg.valid = true ∧ EngInv s ∧ s.seq.engState = .idle ∧ s.cmdLatch = 0x04 ∧
    s.flags.feedbackReversed = false ∧ s.flags.outputShorted = false ∧ s.ovl.state ≠ .shutdown ∧
    ([⟨0, 0, 0, 0⟩] : List EngIn) ≠ [] ∧
    (List.replicate 31 (⟨0, 0, 0, 0⟩ : EngIn)).length < 2 * s.cfg.pingRampHc.toNat * s.cfg.n ∧
    2 * s.cfg.pingRampHc.toNat * s.cfg.n ≤ (List.replicate 32 (⟨0, 0, 0, 0⟩ : EngIn)).length :=
  ⟨by decide, engInv_of (by decide +kernel), rfl, rfl, rfl, rfl, by decide, by simp, by decide, by decide⟩

end Sys2Proof.Tests
end

section
/-! PROOF. Who writes what: the frames of the ticks, of the control writes and of the other events (obligations
O28, O46, O49, O50). -/

namespace Sys2Proof.Proofs

open Sys2Proof Sys2Proof.Machine Sys2Proof.Laws Sys2Proof.Claims

/-! ### Steps from placed events -/

/-- With a valid record, a step from placed events is the first of them. -/
theorem step_withEvents {s : State} (hv : s.cfg.valid = true) (e : Event) (rest : List Event) :
    step (withEvents s (e :: rest)) = runEvent e (beginEvent rest s) :=
  step_event (s := withEvents s (e :: rest)) hv rfl

/-- A step that answers a next state from placed events has run the first of them. -/
theorem runEvent_of_step {s t : State} {e : Event} {rest : List Event}
    (h : step (withEvents s (e :: rest)) = .next t) : runEvent e (beginEvent rest s) = .next t := by
  have hv : s.cfg.valid = true := valid_of_step (s := withEvents s (e :: rest)) h
  rwa [step_withEvents hv] at h

/-! ### The seven commands and the five control writes -/

/-- A case split over the commands (30_encoding.md R101). -/
theorem cmd8_cases {motive : (i : Instr) → i.format = .cmd8 → Prop}
    (none : motive .none rfl) (reset : motive .reset rfl) (softStart : motive .softStart rfl)
    (start : motive .start rfl) (ping : motive .ping rfl) (softStop : motive .softStop rfl)
    (stop : motive .stop rfl) (i : Instr) (hi : i.format = .cmd8) : motive i hi := by
  cases i <;> first | assumption | nomatch hi

/-- A case split over the control writes (30_encoding.md R118). -/
theorem ctrl32_cases {motive : (i : Instr) → i.format = .ctrl32 → Prop}
    (ovlReset : motive .ovlReset rfl) (zcStopChg : motive .zcStopChg rfl) (zcStopInv : motive .zcStopInv rfl)
    (clrFbReversed : motive .clrFbReversed rfl) (clrOutShorted : motive .clrOutShorted rfl)
    (i : Instr) (hi : i.format = .ctrl32) : motive i hi := by
  cases i <;> first | assumption | nomatch hi

/-- `t` has the parameter record of `s` and its engine group, but for the drive outputs and the fault flags
(10_state.md R22, R24 to R31). -/
structure SameEngine (s t : State) : Prop where
  cfg : t.cfg = s.cfg
  seq : t.seq = s.seq
  ramp : t.ramp = s.ramp
  pid : t.pid = s.pid
  flatTop : t.flatTop = s.flatTop
  fbDly : t.fbDly = s.fbDly
  rebal : t.rebal = s.rebal
  satDet : t.satDet = s.satDet
  safe : t.safe = s.safe
  fbZeroCount : t.fbZeroCount = s.fbZeroCount

theorem SameEngine.trans {s u t : State} (h : SameEngine s u) (k : SameEngine u t) : SameEngine s t where
  cfg := k.cfg.trans h.cfg
  seq := k.seq.trans h.seq
  ramp := k.ramp.trans h.ramp
  pid := k.pid.trans h.pid
  flatTop := k.flatTop.trans h.flatTop
  fbDly := k.fbDly.trans h.fbDly
  rebal := k.rebal.trans h.rebal
  satDet := k.satDet.trans h.satDet
  safe := k.safe.trans h.safe
  fbZeroCount := k.fbZeroCount.trans h.fbZeroCount

/-- What a control write leaves alone, and what it makes of the two fault flags. -/
structure ControlFrame (i : Instr) (s t : State) : Prop where
  engine : SameEngine s t
  drive : t.drive = s.drive
  reversed : t.flags.feedbackReversed = if i = .clrFbReversed then false else s.flags.feedbackReversed
  shorted : t.flags.outputShorted = if i = .clrOutShorted then false else s.flags.outputShorted

theorem controlFrame_exec {i : Instr} {s t : State} (hi : i.format = .ctrl32) (h : exec i s = .next t) :
    ControlFrame i s t := by
  cases i, hi using ctrl32_cases with
  | ovlReset => cases h; exact ⟨by constructor <;> rfl, rfl, rfl, rfl⟩
  | zcStopChg => cases h; exact ⟨by constructor <;> rfl, rfl, rfl, rfl⟩
  | zcStopInv => cases h; exact ⟨by constructor <;> rfl, rfl, rfl, rfl⟩
  | clrFbReversed => cases h; exact ⟨by constructor <;> rfl, rfl, rfl, rfl⟩
  | clrOutShorted => cases h; exact ⟨by constructor <;> rfl, rfl, rfl, rfl⟩

/-! ### The self-tests at the peak -/

/-- The four ways the self-tests of a tick can go (44_clamp_saturation.md R295 to R297). -/
theorem peakTests_cases (f : S17) (s : State) :
    peakTests f s = s ∨
    (s.seq.engState = .normal ∧ ∃ z : U16, z.toNat < s.cfg.fbZeroCountMax.toNat ∧
      peakTests f s = { s with fbZeroCount := z }) ∨
    (s.seq.engState = .softStart ∧ peakTests f s = raiseFault .feedbackReversed s) ∨
    (s.seq.engState = .normal ∧ s.seq.idx.toNat = s.cfg.n / 2 ∧ ∃ z : U16,
      s.cfg.fbZeroCountMax.toNat ≤ z.toNat ∧
      peakTests f s = raiseFault .outputShorted { s with fbZeroCount := z }) := by
  obtain ⟨hoff, hother, hrev, hzero⟩ := peakTests_spec f s
  by_cases hpeak : s.seq.idx.toNat = s.cfg.peakIdx
  case neg => exact .inl (hoff hpeak)
  cases he : s.seq.engState with
  | softStart =>
    rw [hrev hpeak he]
    split
    · exact .inr (.inr (.inl ⟨rfl, rfl⟩))
    · exact .inl rfl
  | normal =>
    obtain ⟨z, -, hz⟩ := hzero hpeak he
    rw [hz]
    split
    · next h => exact .inr (.inr (.inr ⟨rfl, hpeak, z, h, rfl⟩))
    · next h => exact .inr (.inl ⟨rfl, z, by omega, rfl⟩)
  | idle => exact .inl (hother (by simp [he]) (by simp [he]))
  | ping => exact .inl (hother (by simp [he]) (by simp [he]))
  | softStop => exact .inl (hother (by simp [he]) (by simp [he]))

@[simp] theorem peakTests_idx (f : S17) (s : State) : (peakTests f s).seq.idx = s.seq.idx := by
  rcases peakTests_cases f s with ht | ⟨-, _, -, ht⟩ | ⟨-, ht⟩ | ⟨-, -, _, -, ht⟩ <;> rw [ht] <;> rfl

/-! ### The event outputs of the two zero-crossing groups -/

/-- The event outputs that the engine does not drive (10_state.md R66). -/
def zcPulses (s : State) : ZcPulses × ZcPulses := (s.pulses.chg, s.pulses.inv)

theorem zcPulses_congr {s t : State} (h : t.pulses = s.pulses) : zcPulses t = zcPulses s := by
  rw [zcPulses, h, zcPulses]

theorem zcPulses_closeCycle (b : Bool) (s : State) : zcPulses (closeCycle b s) = zcPulses s := by
  unfold closeCycle
  split
  · split
    · exact (zcPulses_congr (fullCycleActions_pulses b _)).trans rfl
    · rfl
  · rfl

theorem zcPulses_pingBoundary (s : State) : zcPulses (pingBoundary s) = zcPulses s := by
  unfold pingBoundary
  extract_lets r u
  split_ifs
  · rfl
  all_goals exact zcPulses_closeCycle _ _

theorem zcPulses_softStopBoundary (s : State) : zcPulses (softStopBoundary s) = zcPulses s := by
  unfold softStopBoundary
  split
  · rfl
  · exact zcPulses_closeCycle _ _

theorem zcPulses_boundary (s : State) : zcPulses (boundary s) = zcPulses s := by
  have hcommon : zcPulses (boundaryCommon s) = zcPulses s := rfl
  unfold boundary
  split
  · rw [zcPulses_closeCycle, zcPulses_congr (softStartBoundary_pulses _), hcommon]
  · rw [zcPulses_pingBoundary, hcommon]
  · rw [zcPulses_softStopBoundary, hcommon]
  · rw [zcPulses_closeCycle, hcommon]
  · rw [zcPulses_closeCycle, hcommon]

theorem zcPulses_advance (s : State) : zcPulses (advance s) = zcPulses s := by
  unfold advance
  split
  · exact zcPulses_boundary s
  · rfl

theorem zcPulses_activeTick (t : U32) (s : State) : zcPulses (activeTick t s) = zcPulses s := by
  rw [activeTick, zcPulses_advance]
  exact zcPulses_congr (by simp)

/-! ### What an active tick does to the flags and the overload group -/

/-- A fault flag that is set stays set (10_state.md R33). -/
def FlagsKept (s t : State) : Prop :=
  (s.flags.feedbackReversed = true → t.flags.feedbackReversed = true) ∧
  (s.flags.outputShorted = true → t.flags.outputShorted = true)

theorem flagsKept_of_eq {s t : State} (h : t.flags = s.flags) : FlagsKept s t := by
  unfold FlagsKept
  rw [h]
  exact ⟨id, id⟩

theorem FlagsKept.trans {s u t : State} (h : FlagsKept s u) (k : FlagsKept u t) : FlagsKept s t :=
  ⟨k.1 ∘ h.1, k.2 ∘ h.2⟩

theorem flagsKept_peakTests (f : S17) (s : State) : FlagsKept s (peakTests f s) := by
  rcases peakTests_cases f s with ht | ⟨-, _, -, ht⟩ | ⟨-, ht⟩ | ⟨-, -, _, -, ht⟩ <;> rw [ht]
  case inl => exact ⟨id, id⟩
  case inr.inl => exact ⟨id, id⟩
  case inr.inr.inl => exact ⟨fun _ => rfl, id⟩
  case inr.inr.inr => exact ⟨id, fun _ => rfl⟩

theorem flagsKept_activeTick (t : U32) (s : State) : FlagsKept s (activeTick t s) := by
  have hflags : (activeTick t s).flags = (peakTests (fbSample s) (shiftFeedback s)).flags := by
    rw [activeTick]; simp
  exact (flagsKept_peakTests (fbSample s) (shiftFeedback s)).trans (flagsKept_of_eq hflags)

/-- The drive step counts a skip down or leaves the overload group alone (44_clamp_saturation.md R293). -/
theorem driveStep_ovl (d : U16) (s : State) : (driveStep d s).ovl = s.ovl ∨
    (s.ovl.skipNextPulseCount ≠ 0 ∧
      (driveStep d s).ovl = { s.ovl with skipNextPulseCount := s.ovl.skipNextPulseCount - 1 }) := by
  rw [driveStep_spec]
  split
  · exact .inl rfl
  · next h => exact .inr ⟨h, by rw [decU16_of_ne_zero h]⟩

/-! ### The frame of a command's tick -/

/-- What the tick of a command leaves alone, and how far it may touch the rest outside the engine group. -/
structure TickFrame (s t : State) : Prop where
  cfg : t.cfg = s.cfg
  zcChg : t.zcChg = s.zcChg
  zcInv : t.zcInv = s.zcInv
  ports : t.ports = s.ports
  events : t.events = s.events
  busRdata : t.busRdata = s.busRdata
  pulses : zcPulses t = zcPulses s
  ovl : t.ovl = s.ovl ∨ (s.ovl.skipNextPulseCount ≠ 0 ∧
    t.ovl = { s.ovl with skipNextPulseCount := s.ovl.skipNextPulseCount - 1 })
  flags : FlagsKept s t
  latch : t.cmdLatch = s.cmdLatch ∨ t.cmdLatch = 0

/-- A step that leaves the overload group alone, then another. -/
theorem TickFrame.trans {s u t : State} (h : TickFrame s u) (hovl : u.ovl = s.ovl) (k : TickFrame u t) :
    TickFrame s t where
  cfg := k.cfg.trans h.cfg
  zcChg := k.zcChg.trans h.zcChg
  zcInv := k.zcInv.trans h.zcInv
  ports := k.ports.trans h.ports
  events := k.events.trans h.events
  busRdata := k.busRdata.trans h.busRdata
  pulses := k.pulses.trans h.pulses
  ovl := hovl ▸ k.ovl
  flags := h.flags.trans k.flags
  latch := k.latch.elim (fun hl => h.latch.imp hl.trans hl.trans) .inr

theorem tickFrame_beginTick (s : State) : TickFrame s (beginTick s) :=
  ⟨rfl, rfl, rfl, rfl, rfl, rfl, rfl, .inl rfl, ⟨id, id⟩, .inl rfl⟩

theorem tickFrame_emptyLatch (s : State) : TickFrame s (emptyLatch s) :=
  ⟨rfl, rfl, rfl, rfl, rfl, rfl, rfl, .inl rfl, ⟨id, id⟩, .inr rfl⟩

theorem tickFrame_engineClear (s : State) : TickFrame s (engineClear s) :=
  ⟨rfl, rfl, rfl, rfl, rfl, rfl, rfl, .inl rfl, ⟨id, id⟩, .inl rfl⟩

theorem tickFrame_idleTick (s : State) : TickFrame s (idleTick s) :=
  ⟨rfl, rfl, rfl, rfl, rfl, rfl, rfl, .inl rfl, ⟨id, id⟩, .inl rfl⟩

theorem tickFrame_activeTick (t : U32) (s : State) : TickFrame s (activeTick t s) where
  cfg := by simp
  zcChg := by simp
  zcInv := by simp
  ports := by simp
  events := by simp
  busRdata := by simp
  pulses := zcPulses_activeTick t s
  ovl := by
    rw [activeTick, advance_ovl, accumulate_ovl]
    simpa using driveStep_ovl _ (tickDuty t _ _ (peakTests (fbSample s) (shiftFeedback s))).1
  flags := flagsKept_activeTick t s
  latch := .inl (by simp)

theorem tickFrame_finishTick {s t : State} (h : finishTick s = .next t) : TickFrame s t := by
  obtain ⟨-, rfl⟩ | ⟨-, x, -, rfl⟩ := finishTick_next h
  · exact tickFrame_idleTick s
  · exact tickFrame_activeTick x s

theorem finishTick_cmdLatch {s t : State} (h : finishTick s = .next t) : t.cmdLatch = s.cmdLatch := by
  obtain ⟨-, rfl⟩ | ⟨-, x, -, rfl⟩ := finishTick_next h <;> simp

theorem tickFrame_applyStart (k : StartCmd) (s : State) : TickFrame s (applyStart k s) :=
  ⟨rfl, rfl, rfl, rfl, rfl, rfl, rfl, .inl rfl, ⟨id, id⟩, .inl rfl⟩

/-- Step B of 40_engine_commands.md R150 leaves what a tick leaves, and the overload group. -/
def StepBFrame (f : State → State) : Prop := ∀ s, TickFrame s (f s) ∧ (f s).ovl = s.ovl

theorem stepBFrame_id : StepBFrame fun s => s := fun _ =>
  ⟨⟨rfl, rfl, rfl, rfl, rfl, rfl, rfl, .inl rfl, ⟨id, id⟩, .inl rfl⟩, rfl⟩

theorem stepBFrame_acceptStart (k : StartCmd) : StepBFrame (acceptStart k) := by
  intro s
  unfold acceptStart
  split
  · split
    · exact ⟨(tickFrame_applyStart k s).trans rfl (tickFrame_emptyLatch _), rfl⟩
    · exact ⟨tickFrame_emptyLatch s, rfl⟩
  · split
    · exact ⟨tickFrame_emptyLatch s, rfl⟩
    · exact stepBFrame_id s
  · exact stepBFrame_id s

theorem stepBFrame_acceptSoftStop : StepBFrame acceptSoftStop := by
  intro s
  unfold acceptSoftStop
  split
  · exact ⟨tickFrame_emptyLatch s, rfl⟩
  · split
    · exact ⟨⟨rfl, rfl, rfl, rfl, rfl, rfl, rfl, .inl rfl, ⟨id, id⟩, .inr rfl⟩, rfl⟩
    · exact stepBFrame_id s
  · exact stepBFrame_id s

theorem tickFrame_clearTick {s t : State} (h : clearTick s = .next t) : TickFrame s t := by
  cases h
  exact (tickFrame_beginTick s).trans rfl ((tickFrame_engineClear _).trans rfl (tickFrame_emptyLatch _))

theorem tickFrame_commandTick {f : State → State} (hf : StepBFrame f) {s t : State}
    (h : commandTick f s = .next t) : TickFrame s t := by
  refine (tickFrame_beginTick s).trans rfl ?_
  obtain ⟨-, -, rfl⟩ | h := commandTick_next h
  · exact tickFrame_engineClear _
  · exact (hf _).1.trans (hf _).2 (tickFrame_finishTick h)

theorem tickFrame_exec {i : Instr} {s t : State} (hi : i.format = .cmd8) (h : exec i s = .next t) :
    TickFrame s t := by
  cases i, hi using cmd8_cases with
  | none => exact tickFrame_commandTick stepBFrame_id h
  | reset => exact tickFrame_clearTick h
  | softStart => exact tickFrame_commandTick (stepBFrame_acceptStart _) h
  | start => exact tickFrame_commandTick (stepBFrame_acceptStart _) h
  | ping => exact tickFrame_commandTick (stepBFrame_acceptStart _) h
  | softStop => exact tickFrame_commandTick stepBFrame_acceptSoftStop h
  | stop => exact tickFrame_clearTick h

theorem execNone_cmdLatch {s t : State} (h : exec .none s = .next t) : t.cmdLatch = s.cmdLatch := by
  obtain ⟨-, -, rfl⟩ | h := commandTick_next (f := fun u => u) h
  · rfl
  · exact (finishTick_cmdLatch h).trans rfl

theorem tickFrame_engTick {s t : State} (h : engTick s = .next t) : TickFrame s t := by
  rcases fetchCommand_state s with hs | hs <;> rw [engTick, hs] at h
  · exact tickFrame_exec (fetchCommand_format s) h
  · exact (tickFrame_emptyLatch s).trans rfl (tickFrame_exec (fetchCommand_format s) h)

/-- Settles O28: the frame of each part of a tick, put together. -/
theorem commandsTouchOnlyTheEngine : Obligations.CommandsTouchOnlyTheEngine := by
  intro s t i hi h
  have hfmt : i.format = .cmd8 := (by decide : ∀ k ∈ commands, k.format = .cmd8) i hi
  obtain ⟨cfg, zcChg, zcInv, ports, events, busRdata, pulses, ovl, flags, latch⟩ := tickFrame_exec hfmt h
  obtain ⟨hchg, hinv⟩ := Prod.mk.inj pulses
  exact ⟨cfg, zcChg, zcInv, ports, events, busRdata, hchg, hinv, ovl, flags.1, flags.2, latch,
    fun hn => execNone_cmdLatch (hn ▸ h)⟩

/-! ### The zero-crossing groups -/

theorem getZc_tickZc_same (j : ZcId) (s : State) :
    getZc (tickZc j s) j = (zcTick (zcCfg s.cfg j) s.ports.acRaw (getZc s j)).1 := by
  cases j <;> rfl

theorem getZc_tickZc_other {j k : ZcId} (h : k ≠ j) (s : State) : getZc (tickZc j s) k = getZc s k :=
  match j, k, h with
  | .chg, .inv, _ => rfl
  | .inv, .chg, _ => rfl
  | .chg, .chg, h => absurd rfl h
  | .inv, .inv, h => absurd rfl h

/-- Taking an event and sampling its ports touches neither group. -/
theorem getZc_sampled (rest : List Event) (s : State) (p : Ports) (j : ZcId) :
    getZc { beginEvent rest s with ports := p } j = getZc s j := by
  cases j <;> rfl

theorem getZc_engTick {s t : State} (h : engTick s = .next t) (j : ZcId) : getZc t j = getZc s j := by
  have hf := tickFrame_engTick h
  cases j
  · exact hf.zcChg
  · exact hf.zcInv

/-- A `pwm_tick` ticks at most the group of its handler (60_exceptions.md R411). -/
theorem getZc_pwmTick {s t : State} (h : pwmTick s = .next t) {j : ZcId}
    (hj : s.ports.handler ≠ (if j = .chg then .charger else .inverter)) : getZc t j = getZc s j := by
  obtain ⟨hh, u, hu, rfl⟩ | ⟨hh, rfl⟩ | ⟨-, rfl⟩ := pwmTick_next h
  · cases j with
    | chg => rw [getZc_tickZc_other (by decide), getZc_engTick hu]
    | inv => exact absurd hh hj
  · cases j with
    | chg => exact absurd hh hj
    | inv => exact getZc_tickZc_other (by decide) _
  · rfl

/-- Settles O46: a tick of a zero-crossing group reads that group, its parameters and the sample, and
writes no other; a `pwm_tick` ticks at most the group of its handler. -/
theorem instancesAreIndependent : Obligations.InstancesAreIndependent := by
  refine ⟨?_, ?_⟩
  · intro s u s' u' j ac r1 r2 hs hu hz hc
    cases runEvent_of_step hs
    cases runEvent_of_step hu
    refine ⟨?_, fun k hk => by rw [getZc_tickZc_other hk, getZc_sampled]⟩
    rw [getZc_tickZc_same, getZc_tickZc_same, getZc_sampled, getZc_sampled, hz]
    exact congrArg (fun c => (zcTick c ac (getZc u j)).1) hc
  · intro s t j hd fb vbus vbatt rms ac rest h hne
    rw [getZc_pwmTick (runEvent_of_step h) hne, getZc_sampled]

/-! ### The other events -/

/-- A host write leaves the engine group and the outputs alone (20_memory.md R80 to R83). -/
theorem sameEngine_busWrite {a n : Nat} {v : U32} {s t : State} (h : busWrite a n v s = .next t) :
    SameEngine s t ∧ t.drive = s.drive := by
  refine busWrite_induction (P := fun u => SameEngine s u ∧ u.drive = s.drive) ?_ ?_
    ⟨by constructor <;> rfl, rfl⟩ h
  · exact fun ⟨hs, hd⟩ => ⟨hs.trans (by constructor <;> rfl), hd⟩
  · intro i hi u w ⟨hs, hd⟩ hw
    have hc := controlFrame_exec hi hw
    exact ⟨hs.trans hc.engine, hc.drive.trans hd⟩

/-- The groups that an event outside the engine's ticks leaves alone (10_state.md R21, 20_memory.md R86). -/
structure WriterFrame (e : Event) (s t : State) : Prop where
  engine : SameEngine s t
  drive : (∀ i a v, e ≠ .sampleTick i a v) → t.drive = s.drive
  flags : (∀ addr n v, e ≠ .busWrite addr n v) → t.flags = s.flags
  latch : (∀ addr n v, e ≠ .busWrite addr n v) → t.cmdLatch = s.cmdLatch
  zc : (∀ addr n v, e ≠ .busWrite addr n v) → (∀ j ac, e ≠ .zcTick j ac) → t.zcChg = s.zcChg ∧ t.zcInv = s.zcInv
  ovl : (∀ addr n v, e ≠ .busWrite addr n v) → (∀ i a v, e ≠ .sampleTick i a v) → (∀ r, e ≠ .zcTask r) →
    t.ovl = s.ovl

theorem writerFrame_tickZc (e : Event) (s : State) (p : Ports) (j : ZcId) (he : ∃ ac, e = .zcTick j ac) :
    WriterFrame e s (tickZc j { s with ports := p }) := by
  obtain ⟨ac, rfl⟩ := he
  cases j <;> exact
    ⟨by constructor <;> rfl, fun _ => rfl, fun _ => rfl, fun _ => rfl, fun _ hz => absurd rfl (hz _ _),
      fun _ _ _ => rfl⟩

theorem writerFrame_runEvent {e : Event} {s t : State} (h : runEvent e s = .next t) (hreset : e ≠ .hwReset)
    (heng : ∀ fb vb vt rm, e ≠ .engTick fb vb vt rm) (hpwm : ∀ h fb vb vt rm ac, e ≠ .pwmTick h fb vb vt rm ac) :
    WriterFrame e s t := by
  cases e with
  | pwmTick => exact absurd rfl (hpwm _ _ _ _ _ _)
  | engTick => exact absurd rfl (heng _ _ _ _)
  | hwReset => exact absurd rfl hreset
  | zcTick j ac => cases h; exact writerFrame_tickZc _ s _ j ⟨ac, rfl⟩
  | sampleTick =>
    cases h
    exact ⟨by constructor <;> simp, fun hs => absurd rfl (hs _ _ _), fun _ => by simp, fun _ => by simp,
      fun _ _ => by simp, fun _ hs => absurd rfl (hs _ _ _)⟩
  | zcTask =>
    cases h
    exact ⟨by constructor <;> simp, fun _ => by simp, fun _ => by simp, fun _ => by simp, fun _ _ => by simp,
      fun _ _ hz => absurd rfl (hz _)⟩
  | busWrite =>
    obtain ⟨hs, hd⟩ := sameEngine_busWrite h
    exact ⟨hs, fun _ => hd, fun hb => absurd rfl (hb _ _ _), fun hb => absurd rfl (hb _ _ _),
      fun hb => absurd rfl (hb _ _ _), fun hb => absurd rfl (hb _ _ _)⟩
  | busRead =>
    cases h
    exact ⟨by constructor <;> rfl, fun _ => rfl, fun _ => rfl, fun _ => rfl, fun _ _ => ⟨rfl, rfl⟩, fun _ _ _ => rfl⟩

/-- Settles O49: taking the event changes no group, and the event only those of its writer's frame. -/
theorem singleWriter : Obligations.SingleWriter := by
  intro s t e rest h hreset heng hpwm
  obtain ⟨hs, hdrive, hflags, hlatch, hzc, hovl⟩ := writerFrame_runEvent (runEvent_of_step h) hreset heng hpwm
  exact ⟨hs.seq, hs.ramp, hs.pid, hs.flatTop, hs.fbDly, hs.rebal, hs.satDet, hs.safe, hs.fbZeroCount, hdrive,
    fun hb => ⟨hflags hb, hlatch hb, hzc hb, hovl hb⟩⟩

/-! ### The fault flags -/

/-- If a word ends a property that every control write but one keeps, that one is in the word. -/
theorem mem_of_runControls {P : State → Prop} {i₀ : Instr} {is : List Instr} {s t : State}
    (hfmt : ∀ i ∈ is, i.format = .ctrl32)
    (hp : ∀ i, i.format = .ctrl32 → i ≠ i₀ → ∀ s t, P s → exec i s = .next t → P t)
    (hs : P s) (ht : ¬ P t) (h : runControls is s = .next t) : i₀ ∈ is := by
  by_contra hmem
  exact ht (runControls_induction (fun i hi => hp i (hfmt i hi) (ne_of_mem_of_not_mem hi hmem)) hs h)

/-- The same for a host write, if the latch write keeps the property too: the write is performed. -/
theorem mem_of_busWrite {P : State → Prop} {i₀ : Instr} {a n : Nat} {v : U32} {s t : State}
    (hl : P s → P (cmdWrite v s))
    (hp : ∀ i, i.format = .ctrl32 → i ≠ i₀ → ∀ s t, P s → exec i s = .next t → P t)
    (hs : P s) (ht : ¬ P t) (h : busWrite a n v s = .next t) :
    ∃ o, busOffset s.cfg a n = some o ∧ i₀ ∈ decodeCtrl o v := by
  unfold busWrite at h
  split at h
  · next o ho =>
    unfold regWrite at h
    split at h
    · cases h; exact absurd (hl hs) ht
    · exact ⟨o, ho, mem_of_runControls (fun i => decodeCtrl_format) hp hs ht h⟩
  · cases h; exact absurd hs ht

theorem clrFbReversed_mem {o : Nat} {v : U32} (h : .clrFbReversed ∈ decodeCtrl o v) :
    o = 0x04 ∧ v.getLsbD 3 = true := by
  obtain ⟨ho, hw⟩ : o = 0x04 ∧ v &&& 8 = 8 := by simpa [decodeCtrl_cases] using h
  exact ⟨ho, (and_twoPow_eq v 3 (by decide)).1 hw⟩

theorem clrOutShorted_mem {o : Nat} {v : U32} (h : .clrOutShorted ∈ decodeCtrl o v) :
    o = 0x04 ∧ v.getLsbD 4 = true := by
  obtain ⟨ho, hw⟩ : o = 0x04 ∧ v &&& 16 = 16 := by simpa [decodeCtrl_cases] using h
  exact ⟨ho, (and_twoPow_eq v 4 (by decide)).1 hw⟩

/-- The address and the width of a performed access (20_memory.md R75). -/
theorem access_of_busOffset {c : Cfg} {a n o : Nat} (h : busOffset c a n = some o) : a = c.regBase + o ∧ n = 4 := by
  obtain ⟨h4, hle, -, -, ho⟩ := (busOffset_eq_some c a n o).1 h
  omega

theorem flagsKept_tickZc (j : ZcId) (s : State) : FlagsKept s (tickZc j s) := by
  cases j <;> exact ⟨id, id⟩

theorem flagsKept_pwmTick {s t : State} (h : pwmTick s = .next t) : FlagsKept s t := by
  obtain ⟨-, u, hu, rfl⟩ | ⟨-, rfl⟩ | ⟨-, rfl⟩ := pwmTick_next h
  · exact (tickFrame_engTick hu).flags.trans (flagsKept_tickZc .inv u)
  · exact flagsKept_tickZc .chg _
  · exact ⟨id, id⟩

/-- Outside a host write and `hw_reset`, a fault flag is only ever set. -/
theorem flagsKept_runEvent {e : Event} {s t : State} (h : runEvent e s = .next t) (hreset : e ≠ .hwReset)
    (hbus : ∀ addr n v, e ≠ .busWrite addr n v) : FlagsKept s t := by
  cases e with
  | pwmTick => have hk := flagsKept_pwmTick h; exact hk
  | engTick => exact (tickFrame_engTick h).flags
  | zcTick => exact flagsKept_of_eq ((writerFrame_runEvent h hreset nofun nofun).flags hbus)
  | sampleTick => exact flagsKept_of_eq ((writerFrame_runEvent h hreset nofun nofun).flags hbus)
  | zcTask => exact flagsKept_of_eq ((writerFrame_runEvent h hreset nofun nofun).flags hbus)
  | busRead => exact flagsKept_of_eq ((writerFrame_runEvent h hreset nofun nofun).flags hbus)
  | busWrite => exact absurd rfl (hbus _ _ _)
  | hwReset => exact absurd rfl hreset

theorem reversed_cleared_by {s t : State} {a n : Nat} {v : U32} (hs : s.flags.feedbackReversed = true)
    (ht : t.flags.feedbackReversed = false) (h : busWrite a n v s = .next t) :
    a = s.cfg.regBase + 0x04 ∧ n = 4 ∧ v.getLsbD 3 = true := by
  obtain ⟨o, ho, hmem⟩ := mem_of_busWrite (P := fun u => u.flags.feedbackReversed = true)
    (i₀ := .clrFbReversed) id
    (fun i hi hne u w hu hw => by rwa [(controlFrame_exec hi hw).reversed, if_neg hne]) hs (by simp [ht]) h
  obtain ⟨rfl, hbit⟩ := clrFbReversed_mem hmem
  obtain ⟨ha, hn⟩ := access_of_busOffset ho
  exact ⟨ha, hn, hbit⟩

theorem shorted_cleared_by {s t : State} {a n : Nat} {v : U32} (hs : s.flags.outputShorted = true)
    (ht : t.flags.outputShorted = false) (h : busWrite a n v s = .next t) :
    a = s.cfg.regBase + 0x04 ∧ n = 4 ∧ v.getLsbD 4 = true := by
  obtain ⟨o, ho, hmem⟩ := mem_of_busWrite (P := fun u => u.flags.outputShorted = true)
    (i₀ := .clrOutShorted) id
    (fun i hi hne u w hu hw => by rwa [(controlFrame_exec hi hw).shorted, if_neg hne]) hs (by simp [ht]) h
  obtain ⟨rfl, hbit⟩ := clrOutShorted_mem hmem
  obtain ⟨ha, hn⟩ := access_of_busOffset ho
  exact ⟨ha, hn, hbit⟩

/-- Settles O50: ticks and the other events keep a set flag, and of the host writes only the one that carries
the flag's own clear ends it. -/
theorem faultFlagsAreSticky : Obligations.FaultFlagsAreSticky := by
  intro s t e rest h
  have hrun := runEvent_of_step h
  by_cases hreset : e = .hwReset
  · exact ⟨fun _ _ => .inl hreset, fun _ _ => .inl hreset⟩
  by_cases hbus : ∀ addr n v, e ≠ .busWrite addr n v
  · obtain ⟨hrev, hshort⟩ := flagsKept_runEvent hrun hreset hbus
    exact ⟨fun hs ht => absurd (hrev hs) (by simp [ht]), fun hs ht => absurd (hshort hs) (by simp [ht])⟩
  · push Not at hbus
    obtain ⟨addr, n, v, rfl⟩ := hbus
    refine ⟨fun hs ht => .inr ⟨v, ?_⟩, fun hs ht => .inr ⟨v, ?_⟩⟩
    · obtain ⟨ha, hn, hbit⟩ := reversed_cleared_by (s := beginEvent rest s) hs ht hrun
      exact ⟨by rw [ha, hn]; rfl, hbit⟩
    · obtain ⟨ha, hn, hbit⟩ := shorted_cleared_by (s := beginEvent rest s) hs ht hrun
      exact ⟨by rw [ha, hn]; rfl, hbit⟩

end Sys2Proof.Proofs
end

section
/-! PROOF. Every step keeps the engine's invariant (obligation O53): a weaker invariant holds inside a tick, the
advance restores the whole, and every other event leaves the engine group alone or clears it. -/

namespace Sys2Proof.Proofs

open Sys2Proof Sys2Proof.Machine Sys2Proof.Laws Sys2Proof.Claims

/-! ### The arithmetic of a tick -/

theorem accU32_le (a : U32) (x : U16) : (accU32 a x).toNat ≤ a.toNat + 65535 := by
  have := x.isLt
  rw [accU32_toNat]; omega

theorem accumulate_dutyAcc_le (s : State) : (accumulate s).rebal.dutyAcc.toNat ≤ s.rebal.dutyAcc.toNat + 65535 :=
  accU32_le _ _

theorem accumulate_satAcc_le (s : State) : (accumulate s).satDet.satAcc.toNat ≤ s.satDet.satAcc.toNat + 65535 := by
  unfold accumulate
  dsimp only
  split
  · exact accU32_le _ _
  · omega

/-- A sum clamped to ±I_LIMIT is within it (43_pid_corrector.md R238). -/
theorem clamped_abs {l : S32} (h : 0 ≤ l.toInt) (v : Int) :
    (satS32 (sat v (-l.toInt) l.toInt)).toInt.natAbs ≤ l.toNat := by
  have hl := BitVec.toInt_lt (x := l)
  have hm := sat_mem (v := v) (lo := -l.toInt) (hi := l.toInt) (by omega)
  have hn : l.toInt = l.toNat := BitVec.toInt_eq_toNat_of_msb (by rw [BitVec.msb_eq_toInt]; simpa)
  rw [satS32_of_mem (by omega) (by omega)]
  omega

/-- The duty of a tick before its reduction lies between MIN_DUTY and FLAT_TOP_DUTY (44 R260). -/
theorem clampDuty_range {c : Cfg} (hv : c.valid = true) (v : Int) :
    c.minDuty.toNat ≤ (clampDuty c v).toNat ∧ (clampDuty c v).toNat ≤ c.flatTopDuty.toNat := by
  obtain ⟨-, -, -, hmin, hmax, -⟩ := valid_bounds hv
  have := clampDuty_toNat hmin v
  omega

theorem chooseDuty_range {s : State} (hv : s.cfg.valid = true) (raw : S32) :
    s.cfg.minDuty.toNat ≤ (chooseDuty raw s).toNat ∧ (chooseDuty raw s).toNat ≤ s.cfg.flatTopDuty.toNat := by
  obtain ⟨-, -, -, hmin, hmax, -⟩ := valid_bounds hv
  unfold chooseDuty
  split
  · omega
  · exact clampDuty_range hv _

theorem reduceDuty_range {s : State} {d : U16}
    (hd : s.cfg.minDuty.toNat ≤ d.toNat ∧ d.toNat ≤ s.cfg.flatTopDuty.toNat) :
    s.cfg.minDuty.toNat ≤ (reduceDuty d s).toNat ∧ (reduceDuty d s).toNat ≤ s.cfg.flatTopDuty.toNat := by
  have := d.isLt
  unfold reduceDuty
  split
  · rw [satU16_of_mem (by omega) (by omega)]; omega
  · exact hd

theorem tickDuty_range {s : State} (hv : s.cfg.valid = true) (t : U32) (b : Nat) (f : S17) :
    s.cfg.minDuty.toNat ≤ (tickDuty t b f s).2.toNat ∧
      (tickDuty t b f s).2.toNat ≤ s.cfg.flatTopDuty.toNat := by
  unfold tickDuty
  split
  · have hcfg := normalDuty_cfg t b f s
    rw [← hcfg]
    exact reduceDuty_range (chooseDuty_range (hcfg ▸ hv) _)
  · exact clampDuty_range hv _

/-! ### The invariant inside a tick -/

/-- What holds of an active engine from the start of a tick to its advance: the conjuncts of `EngInv` that
no step of the tick breaks, and `soft_stop_clear` for an index the tick has not left yet. -/
structure TickInv (s : State) : Prop where
  valid : s.cfg.valid = true
  active : s.seq.engState ≠ .idle
  idx_lt : s.seq.idx.toNat < s.cfg.n
  line_length : s.fbDly.length = s.cfg.fbDelay
  open_clear : s.seq.engState = .softStart ∨ s.seq.engState = .ping →
    pidClear s ∧ s.ramp.normHalves = 0 ∧ s.fbZeroCount = 0
  soft_stop_clear : s.seq.engState = .softStop →
    pidClear s ∨ (s.cfg.n / 2 ≤ s.seq.idx.toNat ∧ s.cfg.fbZeroCountMax.toNat ≤ s.fbZeroCount.toNat)
  halves_le : s.ramp.normHalves.toNat ≤ 2
  integral_abs : s.pid.integralSum.toInt.natAbs ≤ s.cfg.iLimit.toNat
  saved_abs : s.pid.savedIntegralSum.toInt.natAbs ≤ s.cfg.iLimit.toNat
  window : s.flatTop.active = true →
    (s.seq.engState = .normal ∨ s.seq.engState = .softStop) ∧
    s.flatTop.endIdx.toNat ≤ s.cfg.n ∧ s.cfg.n ≤ 2 * s.flatTop.endIdx.toNat
  inc_pos : 1 ≤ s.ramp.rampInc.toNat
  soft_start_count : s.seq.engState = .softStart → halvesDone s.ramp < s.cfg.softStartCycles.toNat
  ping_count : s.seq.engState = .ping → halvesDone s.ramp < 2 * s.cfg.pingRampHc.toNat
  count_full : s.ramp.hcOver ≠ 0 → s.ramp.hcCount.toNat = 65535
  zero_count : s.seq.engState ≠ .softStop → s.fbZeroCount.toNat < s.cfg.fbZeroCountMax.toNat
  offset_abs : s.rebal.zcOffset.toInt.natAbs ≤ s.cfg.zcOffsetMax.toNat
  reduce_amt : s.satDet.reduceActive = false → s.satDet.reduceAmt = 0
  safe_le : s.safe.safeCyclesLeft.toNat ≤ s.cfg.safeICycles.toNat
  levels_low : s.drive.ovrLvlA = false ∧ s.drive.ovrLvlB = false
  one_pair : s.drive.ovrEnA = true ∨ s.drive.ovrEnB = true
  duty_regs : s.drive.pdcA = (if s.drive.ovrEnA then 0 else s.drive.dutyOut) ∧
    s.drive.pdcB = (if s.drive.ovrEnB then 0 else s.drive.dutyOut) ∧
    (s.drive.ovrEnA = true → s.drive.ovrEnB = true → s.drive.dutyOut = 0)
  duty_range : dutyInRange s.cfg s.drive.dutyOut
  faults_stop : s.flags.feedbackReversed = true ∨ s.flags.outputShorted = true →
    s.seq.engState = .idle ∨ s.seq.engState = .softStop

theorem tickInv_of_engInv {s : State} (hv : s.cfg.valid = true) (ha : s.seq.engState ≠ .idle) (h : EngInv s) :
    TickInv s :=
  { h with
    valid := hv
    active := ha
    inc_pos := h.inc_pos ha
    soft_stop_clear := fun hs => (h.soft_stop_clear hs).imp_right (.imp_left Nat.le_of_lt) }

theorem tickInv_shiftFeedback {s : State} (h : TickInv s) : TickInv (shiftFeedback s) :=
  { h with line_length := by rw [shiftFeedback_line]; simpa using h.line_length }

/-- A failed self-test enters SOFT_STOP with whatever flags it latches (44 R296, R297). -/
theorem tickInv_failedTest {s : State} (h : TickInv s) (fl : EngFlags) (z : U16)
    (hc : pidClear s ∨ (s.cfg.n / 2 ≤ s.seq.idx.toNat ∧ s.cfg.fbZeroCountMax.toNat ≤ z.toNat)) :
    TickInv { s with flags := fl, fbZeroCount := z, seq.engState := .softStop } :=
  { h with
    active := nofun
    open_clear := by simp
    soft_stop_clear := fun _ => hc
    window := fun hw => ⟨.inr rfl, (h.window hw).2⟩
    soft_start_count := nofun
    ping_count := nofun
    zero_count := fun hs => absurd rfl hs
    faults_stop := fun _ => .inr rfl }

theorem tickInv_peakTests {s : State} (h : TickInv s) (f : S17) : TickInv (peakTests f s) := by
  rcases peakTests_cases f s with ht | ⟨he, z, hz, ht⟩ | ⟨he, ht⟩ | ⟨he, hpeak, z, hz, ht⟩ <;> rw [ht]
  case inl => exact h
  case inr.inl =>
    exact { h with
      open_clear := by simp [he]
      soft_stop_clear := by simp [he]
      zero_count := fun _ => hz }
  case inr.inr.inl => exact tickInv_failedTest h _ s.fbZeroCount (.inl (h.open_clear (.inl he)).1)
  case inr.inr.inr => exact tickInv_failedTest h _ z (.inr ⟨hpeak.ge, hz⟩)

section ClosedLoop

variable {s : State} (h : TickInv s) (he : s.seq.engState = .normal)
include h he

theorem tickInv_closeFlatTop : TickInv (closeFlatTop s) := by
  unfold closeFlatTop
  split
  · exact { h with
      open_clear := by simp [he]
      soft_stop_clear := by simp [he]
      integral_abs := h.saved_abs
      window := nofun }
  · exact h

theorem tickInv_integrate (err : S32) : TickInv (integrate err s) := by
  obtain ⟨-, -, -, -, -, -, -, -, hlim, -⟩ := valid_bounds h.valid
  unfold integrate
  split
  · exact { h with
      open_clear := by simp [he]
      soft_stop_clear := by simp [he]
      integral_abs := Nat.zero_le _ }
  · exact { h with
      open_clear := by simp [he]
      soft_stop_clear := by simp [he]
      integral_abs := clamped_abs hlim _ }

theorem tickInv_prevError (err : S32) : TickInv { s with pid.prevError := err } :=
  { h with
    open_clear := by simp [he]
    soft_stop_clear := by simp [he] }

/-- A window opened in the rising half ends in the falling one (44 R264). -/
theorem tickInv_openFlatTop (raw : S32) : TickInv (openFlatTop raw s) := by
  unfold openFlatTop
  split
  · next hopen =>
    obtain ⟨-, hn, -⟩ := valid_bounds h.valid
    have hidx : s.seq.idx.toNat ≤ s.cfg.n / 2 := by simp at hopen; omega
    have hend : (satU16 ((s.cfg.n : Int) - s.seq.idx.toNat)).toNat = s.cfg.n - s.seq.idx.toNat := by
      rw [satU16_of_mem (by omega) (by omega)]; omega
    have hwin : (satU16 ((s.cfg.n : Int) - s.seq.idx.toNat)).toNat ≤ s.cfg.n ∧
        s.cfg.n ≤ 2 * (satU16 ((s.cfg.n : Int) - s.seq.idx.toNat)).toNat := by omega
    exact { h with
      open_clear := by simp [he]
      soft_stop_clear := by simp [he]
      integral_abs := Nat.zero_le _
      saved_abs := h.integral_abs
      window := fun _ => ⟨.inl he, hwin⟩ }
  · exact h

end ClosedLoop

theorem tickInv_tickDuty {s : State} (h : TickInv s) (t : U32) (b : Nat) (f : S17) :
    TickInv (tickDuty t b f s).1 := by
  unfold tickDuty
  split
  · next he =>
    have hclose := tickInv_closeFlatTop h he
    have hint := tickInv_integrate hclose (by simpa) (pidError s.cfg t f s.ports.rmsOffset)
    have herr := tickInv_prevError hint (by simpa) (pidError s.cfg t f s.ports.rmsOffset)
    exact tickInv_openFlatTop herr (by simpa) _
  · exact h

/-- The drive step puts one duty of the range on one pair, or none (44 R260, R291 to R293). -/
theorem tickInv_driveStep {s : State} (h : TickInv s) {d : U16}
    (hd : s.cfg.minDuty.toNat ≤ d.toNat ∧ d.toNat ≤ s.cfg.flatTopDuty.toNat) : TickInv (driveStep d s) := by
  rw [driveStep_spec]
  split
  · cases hp : s.seq.phase with
    | positive =>
      exact { h with
        levels_low := ⟨rfl, rfl⟩
        one_pair := .inr rfl
        duty_regs := ⟨rfl, rfl, nofun⟩
        duty_range := .inr hd }
    | negative =>
      exact { h with
        levels_low := ⟨rfl, rfl⟩
        one_pair := .inl rfl
        duty_regs := ⟨rfl, rfl, nofun⟩
        duty_range := .inr hd }
  · exact { h with
      levels_low := ⟨rfl, rfl⟩
      one_pair := .inl rfl
      duty_regs := ⟨rfl, rfl, fun _ _ => rfl⟩
      duty_range := .inl rfl }

theorem tickInv_accumulate {s : State} (h : TickInv s) : TickInv (accumulate s) := { h with }

/-! ### The advance -/

/-- Everything `pid_phase_clear()` writes, spelled out (40_engine_commands.md R144). -/
theorem pidPhaseClear_eq_iff (s : State) : pidPhaseClear s = s ↔
    s.seq.phase = .positive ∧ s.seq.idx = 0 ∧ s.pid = ⟨0, 0, 0⟩ ∧ s.flatTop = ⟨false, 0⟩ ∧
    s.ramp = ⟨0, 0, 0, 0, 0⟩ ∧ s.fbDly.map (fun _ => 0) = s.fbDly ∧ s.rebal.dutyAcc = 0 ∧
    s.rebal.dutySumPos = 0 ∧ s.rebal.dutySumNeg = 0 ∧ s.satDet = ⟨0, 0, 0, false, .positive, 0⟩ ∧
    s.fbZeroCount = 0 ∧ s.drive.dutyOut = 0 := by
  obtain ⟨_, _, ⟨_, _, _⟩, _, _, _, _, ⟨_, _, _, _⟩, _, _, _, ⟨_, _, _, _, _, _, _⟩, _⟩ := s
  simp only [pidPhaseClear, State.mk.injEq, SeqState.mk.injEq, RebalState.mk.injEq, DriveRegs.mk.injEq]
  grind

/-- An engine that is clear and off in IDLE meets the invariant. -/
theorem engInv_of_idle {s : State} (hv : s.cfg.valid = true) (he : s.seq.engState = .idle)
    (hc : pidPhaseClear s = s) (hd : drivesOff s) (hl : s.fbDly.length = s.cfg.fbDelay)
    (ho : s.rebal.zcOffset.toInt.natAbs ≤ s.cfg.zcOffsetMax.toNat)
    (hs : s.safe.safeCyclesLeft.toNat ≤ s.cfg.safeICycles.toNat) : EngInv s := by
  obtain ⟨hn, -, -, -, -, -, -, -, -, hz, -⟩ := valid_bounds hv
  obtain ⟨-, hidx, hpid, hft, hramp, -, hacc, -, -, hsat, hzero, hout⟩ := (pidPhaseClear_eq_iff s).1 hc
  have hdrive : s.drive = DriveRegs.reset := by rw [hd, hout]; rfl
  exact {
    idx_lt := by rw [hidx]; exact Nat.lt_of_lt_of_le Nat.zero_lt_two hn
    line_length := hl
    idle_clear := fun _ => ⟨hc, hd⟩
    start_clear := fun _ => ⟨⟨hpid, hft⟩, hacc, by simp [hsat]⟩
    open_clear := by simp [he]
    soft_stop_clear := by simp [he]
    halves_le := by simp [hramp]
    integral_abs := by simp [hpid]
    saved_abs := by simp [hpid]
    window := by simp [hft]
    duty_acc_le := by simp [hacc]
    sat_acc_le := by simp [hsat]
    inc_pos := fun ha => absurd he ha
    soft_start_count := by simp [he]
    ping_count := by simp [he]
    count_full := by simp [hramp]
    zero_count := fun _ => by rw [hzero]; exact Nat.lt_of_lt_of_le Nat.zero_lt_one hz
    offset_abs := ho
    reduce_amt := by simp [hsat]
    safe_le := hs
    levels_low := by simp [hdrive, DriveRegs.reset]
    one_pair := by simp [hdrive, DriveRegs.reset]
    duty_regs := by simp [hdrive, DriveRegs.reset]
    duty_range := .inl hout
    faults_stop := fun _ => .inl he }

theorem engInv_engineClear {s : State} (hv : s.cfg.valid = true) (h : EngInv s) : EngInv (engineClear s) :=
  engInv_of_idle hv rfl ((pidPhaseClear_eq_iff _).2 (by simp [engineClear, idleEntry, driveOff, pidPhaseClear])) rfl
    (by simpa [engineClear, idleEntry, driveOff, pidPhaseClear] using h.line_length) (Nat.zero_le _) h.safe_le

/-- Inside the half-cycle the tick leaves its index behind (42 R214). -/
theorem engInv_inside {s : State} (h : TickInv s) (hn : s.seq.idx.toNat + 1 ≠ s.cfg.n)
    (hd : s.rebal.dutyAcc.toNat ≤ (s.seq.idx.toNat + 1) * 65535)
    (hs : s.satDet.satAcc.toNat ≤ (s.seq.idx.toNat + 1) * 65535) :
    EngInv { s with seq.idx := incU16 s.seq.idx } := by
  obtain ⟨-, hmax, -⟩ := valid_bounds h.valid
  have hlt := h.idx_lt
  have hidx : (incU16 s.seq.idx).toNat = s.seq.idx.toNat + 1 := incU16_of_lt (by omega)
  exact { h with
    idx_lt := by simp only [hidx]; omega
    idle_clear := fun hi => absurd hi h.active
    start_clear := fun h0 => by rw [show incU16 s.seq.idx = 0 from h0] at hidx; simp at hidx
    soft_stop_clear := fun he => (h.soft_stop_clear he).imp_right
      (.imp_left fun hp => by simp only [hidx]; omega)
    duty_acc_le := by simp only [hidx]; exact hd
    sat_acc_le := by simp only [hidx]; exact hs
    inc_pos := fun _ => h.inc_pos }

theorem nextNormHalves_le (b : Bool) (x : U2) : (nextNormHalves b x).toNat ≤ 2 := by
  cases b
  · exact Nat.zero_le _
  · simp only [nextNormHalves, if_true, BitVec.toNat_ofNat]; omega

/-- What `boundary()` does in every state restores the invariant at index 0 (42 R215). -/
theorem engInv_boundaryCommon {s : State} (h : TickInv s) : EngInv (boundaryCommon s) := by
  obtain ⟨hn, -⟩ := valid_bounds h.valid
  exact { h with
    idx_lt := Nat.lt_of_lt_of_le Nat.zero_lt_two hn
    idle_clear := fun hi => absurd hi h.active
    start_clear := fun _ => ⟨⟨rfl, rfl⟩, rfl, rfl⟩
    open_clear := fun he => ⟨⟨rfl, rfl⟩, by
      rcases he with he | he <;> simp [boundaryCommon, nextNormHalves, show s.seq.engState = _ from he],
      (h.open_clear he).2.2⟩
    soft_stop_clear := fun _ => .inl ⟨rfl, rfl⟩
    halves_le := nextNormHalves_le _ _
    integral_abs := Nat.zero_le _
    saved_abs := Nat.zero_le _
    window := nofun
    duty_acc_le := Nat.zero_le _
    sat_acc_le := Nat.zero_le _
    inc_pos := fun _ => h.inc_pos }

theorem satS16_natAbs_le (v : Int) : (satS16 v).toInt.natAbs ≤ v.natAbs := by
  rw [satS16_toInt]; unfold sat; split <;> [omega; (split <;> omega)]

section FullCycle

variable {s : State} (h : EngInv s) (ha : s.seq.engState ≠ .idle)
include h ha

theorem engInv_fullCyclePulse : EngInv { s with pulses.fullCycle := true } :=
  { h with idle_clear := fun hi => absurd hi ha }

theorem engInv_selectGain : EngInv (selectGain s) :=
  { h with idle_clear := fun hi => absurd hi ha }

theorem engInv_safeCycleOver : EngInv { s with safe.safeCyclesLeft := decU16 s.safe.safeCyclesLeft } :=
  { h with
    idle_clear := fun hi => absurd hi ha
    safe_le := by have := h.safe_le; simp only [decU16_toNat]; omega }

theorem engInv_rebalance : EngInv (rebalance s) := by
  have hoff := h.offset_abs
  unfold rebalance
  split_ifs
  · exact { h with
      idle_clear := fun hi => absurd hi ha
      offset_abs := (satS16_natAbs_le _).trans (by dsimp only; omega) }
  · exact { h with
      idle_clear := fun hi => absurd hi ha
      offset_abs := (satS16_natAbs_le _).trans (by dsimp only; omega) }
  · exact h

theorem engInv_satIdle : EngInv (satIdle s) :=
  { h with
    idle_clear := fun hi => absurd hi ha
    reduce_amt := fun _ => rfl }

theorem engInv_saturationDetect : EngInv (saturationDetect s) := by
  unfold saturationDetect
  split
  · exact { h with
      idle_clear := fun hi => absurd hi ha
      reduce_amt := nofun }
  · exact engInv_satIdle h ha

/-- The two detectors of a full cycle, rebalancing and saturation (42 R216). -/
theorem engInv_detectors :
    EngInv (if s.ramp.normHalves.toNat = 2 then saturationDetect (rebalance s) else satIdle s) := by
  split
  · exact engInv_saturationDetect (engInv_rebalance h ha) (by simpa using ha)
  · exact engInv_satIdle h ha

theorem engInv_fullCycleActions (wasNormal : Bool) : EngInv (fullCycleActions wasNormal s) := by
  cases wasNormal
  · exact engInv_detectors (engInv_selectGain h ha) ha
  · exact engInv_detectors (engInv_selectGain (engInv_safeCycleOver h ha) ha) ha

theorem engInv_closeCycle (wasNormal : Bool) : EngInv (closeCycle wasNormal s) := by
  unfold closeCycle
  split
  · split
    · exact engInv_fullCycleActions (engInv_fullCyclePulse h ha) ha wasNormal
    · exact engInv_fullCyclePulse h ha
  · exact h

end FullCycle

/-! ### The boundary, state by state (40 R160, R163, R165) -/

/-- The end of the soft start hands over to NORMAL (40 R160). -/
theorem engInv_softStartBoundary {s : State} (h : EngInv s)
    (he : s.seq.engState = .softStart) : EngInv (softStartBoundary s) := by
  have hinc := h.inc_pos (by simp [he])
  unfold softStartBoundary
  split
  · exact { h with
      idle_clear := nofun
      open_clear := by simp
      soft_stop_clear := nofun
      window := fun hw => ⟨.inl rfl, (h.window hw).2⟩
      inc_pos := fun _ => hinc
      soft_start_count := nofun
      ping_count := nofun
      count_full := countHalf_full h.count_full
      zero_count := fun _ => h.zero_count (by simp [he])
      faults_stop := fun hf => by simpa [he] using h.faults_stop hf }
  · next hlt =>
    exact { h with
      idle_clear := by simp [he]
      soft_start_count := fun _ => Nat.lt_of_not_le hlt
      ping_count := by simp [he]
      count_full := countHalf_full h.count_full }

/-- A PING half-cycle that is not the last is counted and leaves some multiplier (40 R163). -/
theorem engInv_pingHalf {s : State} (h : EngInv s) (he : s.seq.engState = .ping) (m : U16)
    (hlt : ¬ 2 * s.cfg.pingRampHc.toNat ≤ halvesDone (countHalf s.ramp)) :
    EngInv { s with ramp := { countHalf s.ramp with multiplier := m } } :=
  { h with
    idle_clear := by simp [he]
    soft_start_count := by simp [he]
    ping_count := fun _ => Nat.lt_of_not_le hlt
    count_full := countHalf_full h.count_full }

theorem engInv_endRun {s : State} (hv : s.cfg.valid = true) (r : RampState) (h : EngInv s) :
    EngInv (endRun { s with ramp := r }) :=
  engInv_of_idle hv rfl
    ((pidPhaseClear_eq_iff _).2 (by simp [endRun, idleEntry, driveOff, pidPhaseClear])) rfl
    (by simpa [endRun, idleEntry, driveOff, pidPhaseClear] using h.line_length) h.offset_abs h.safe_le

theorem engInv_pingBoundary {s : State} (hv : s.cfg.valid = true) (h : EngInv s)
    (he : s.seq.engState = .ping) : EngInv (pingBoundary s) := by
  unfold pingBoundary
  extract_lets r u
  split_ifs with hend hup hdown
  · exact engInv_endRun hv r h
  · exact engInv_closeCycle (engInv_pingHalf h he _ hend) (by simp [he]) _
  · exact engInv_closeCycle (engInv_pingHalf h he _ hend) (by simp [he]) _
  · exact engInv_closeCycle (engInv_pingHalf h he s.ramp.multiplier hend) (by simp [he]) _

theorem engInv_softStopBoundary {s : State} (hv : s.cfg.valid = true) (h : EngInv s)
    (he : s.seq.engState = .softStop) : EngInv (softStopBoundary s) := by
  unfold softStopBoundary
  split
  · exact engInv_endRun hv _ h
  · have hdown : EngInv { s with ramp.multiplier := rampDown s } := { h with idle_clear := by simp [he] }
    exact engInv_closeCycle hdown (by simp [he]) _

theorem engInv_boundary {s : State} (h : TickInv s) : EngInv (boundary s) := by
  have hc := engInv_boundaryCommon h
  have hv : (boundaryCommon s).cfg.valid = true := h.valid
  unfold boundary
  split
  · next he =>
    refine engInv_closeCycle (engInv_softStartBoundary hc he) ?_ _
    unfold softStartBoundary
    split
    · nofun
    · exact h.active
  · next he => exact engInv_pingBoundary hv hc he
  · next he => exact engInv_softStopBoundary hv hc he
  · exact engInv_closeCycle hc h.active _
  · next he => exact absurd he h.active

theorem engInv_advance {s : State} (h : TickInv s)
    (hd : s.rebal.dutyAcc.toNat ≤ (s.seq.idx.toNat + 1) * 65535)
    (hs : s.satDet.satAcc.toNat ≤ (s.seq.idx.toNat + 1) * 65535) : EngInv (advance s) := by
  unfold advance
  split
  · exact engInv_boundary h
  · next hn => exact engInv_inside h hn hd hs

/-- Steps D to I of a tick keep the invariant (40 R150). -/
theorem engInv_activeTick {s : State} (hv : s.cfg.valid = true) (ha : s.seq.engState ≠ .idle) (h : EngInv s)
    (t : U32) : EngInv (activeTick t s) := by
  unfold activeTick
  extract_lets p
  have htests := tickInv_peakTests (tickInv_shiftFeedback (tickInv_of_engInv hv ha h)) (fbSample s)
  have hp : TickInv p.1 := tickInv_tickDuty htests _ _ _
  have hduty : p.1.cfg.minDuty.toNat ≤ p.2.toNat ∧ p.2.toNat ≤ p.1.cfg.flatTopDuty.toNat := by
    simpa [p] using tickDuty_range htests.valid _ _ _
  have hidx : (accumulate (driveStep p.2 p.1)).seq.idx = s.seq.idx := by simp [p]
  have hacc := accumulate_dutyAcc_le (driveStep p.2 p.1)
  have hsat := accumulate_satAcc_le (driveStep p.2 p.1)
  rw [show (driveStep p.2 p.1).rebal = s.rebal by simp [p]] at hacc
  rw [show (driveStep p.2 p.1).satDet = s.satDet by simp [p]] at hsat
  have hacc0 := h.duty_acc_le
  have hsat0 := h.sat_acc_le
  exact engInv_advance (tickInv_accumulate (tickInv_driveStep hp hduty)) (by rw [hidx]; omega) (by rw [hidx]; omega)

/-! ### The commands -/

theorem drive_eq_reset_of_idle {s : State} (hi : s.seq.engState = .idle) (h : EngInv s) :
    s.drive = DriveRegs.reset := by
  obtain ⟨hclear, hoff⟩ := h.idle_clear hi
  obtain ⟨-, -, -, -, -, -, -, -, -, -, -, hout⟩ := (pidPhaseClear_eq_iff s).1 hclear
  rw [hoff, hout]
  rfl

/-- An IDLE tick of a state that meets the invariant finds nothing to hold off (40 R151). -/
theorem idleTick_eq_self {s : State} (hi : s.seq.engState = .idle) (h : EngInv s) : idleTick s = s := by
  show { s with drive := DriveRegs.reset } = s
  rw [← drive_eq_reset_of_idle (s := s) hi h]

theorem engInv_finishTick {s t : State} (hv : s.cfg.valid = true) (h : EngInv s) (ht : finishTick s = .next t) :
    EngInv t := by
  obtain ⟨hi, rfl⟩ | ⟨ha, x, -, rfl⟩ := finishTick_next ht
  · rwa [idleTick_eq_self hi h]
  · exact engInv_activeTick hv ha h x

/-- The engine's invariant does not look at the other groups; the outputs may be forced off and flags
cleared. -/
theorem engInv_of_sameEngine {s t : State} (h : EngInv s) (hs : SameEngine s t)
    (hd : t.drive = s.drive ∨ t.drive = DriveRegs.reset)
    (hf : t.flags.feedbackReversed = true ∨ t.flags.outputShorted = true →
      s.flags.feedbackReversed = true ∨ s.flags.outputShorted = true) : EngInv t := by
  cases t
  cases hs
  dsimp only at *
  subst_vars
  rcases hd with rfl | rfl
  · exact { h with
      idle_clear := fun hi => ⟨(pidPhaseClear_eq_iff _).2 ((pidPhaseClear_eq_iff s).1 (h.idle_clear hi).1),
        (h.idle_clear hi).2⟩
      faults_stop := fun hl => h.faults_stop (hf hl) }
  · exact { h with
      idle_clear := fun hi => by
        rw [← drive_eq_reset_of_idle (s := s) hi h]
        exact ⟨(pidPhaseClear_eq_iff _).2 ((pidPhaseClear_eq_iff s).1 (h.idle_clear hi).1), (h.idle_clear hi).2⟩
      levels_low := ⟨rfl, rfl⟩
      one_pair := .inl rfl
      duty_regs := ⟨rfl, rfl, fun _ _ => rfl⟩
      duty_range := .inl rfl
      faults_stop := fun hl => h.faults_stop (hf hl) }

theorem engInv_beginTick {s : State} (h : EngInv s) : EngInv (beginTick s) :=
  engInv_of_sameEngine h (by constructor <;> rfl) (.inl rfl) id

theorem engInv_emptyLatch {s : State} (h : EngInv s) : EngInv (emptyLatch s) :=
  engInv_of_sameEngine h (by constructor <;> rfl) (.inl rfl) id

theorem atLeastOne_pos (x : U16) : 1 ≤ (atLeastOne x).toNat := by
  rw [atLeastOne_toNat]; omega

theorem startRampInc_pos (c : Cfg) (v : U16) (k : StartCmd) : 1 ≤ (startRampInc c v k).toNat := by
  cases k <;> exact atLeastOne_pos _

/-- A start from a clear engine with no fault latched (40 R142, R145). -/
theorem engInv_applyStart {s : State} (hv : s.cfg.valid = true) (h : EngInv s) (hi : s.seq.engState = .idle)
    (hok : startAllowed s = true) (k : StartCmd) : EngInv (applyStart k s) := by
  obtain ⟨-, -, -, -, -, hcyc, hping, -⟩ := valid_bounds hv
  have hclear := (h.idle_clear hi).1
  obtain ⟨-, -, hpid, hft, hramp, -, -, -, -, -, hzero, -⟩ := (pidPhaseClear_eq_iff s).1 hclear
  simp only [startAllowed, Bool.and_eq_true, Bool.not_eq_true'] at hok
  obtain ⟨⟨hrev, hshort⟩, -⟩ := hok
  unfold applyStart
  rw [hclear]
  exact { h with
    idle_clear := fun hk => by cases k <;> nomatch hk
    open_clear := fun _ => ⟨⟨hpid, hft⟩, by simp [hramp], hzero⟩
    soft_stop_clear := fun _ => .inl ⟨hpid, hft⟩
    window := by simp [hft]
    inc_pos := fun _ => startRampInc_pos _ _ k
    soft_start_count := fun _ => by simpa [halvesDone, hramp] using Nat.lt_of_lt_of_le Nat.zero_lt_one hcyc
    ping_count := fun _ => by simpa [halvesDone, hramp] using Nat.lt_of_lt_of_le Nat.zero_lt_one hping
    count_full := by simp [hramp]
    zero_count := fun _ => h.zero_count (by simp [hi])
    faults_stop := by simp [hrev, hshort] }

theorem engInv_acceptStart {s : State} (hv : s.cfg.valid = true) (h : EngInv s) (k : StartCmd) :
    EngInv (acceptStart k s) := by
  unfold acceptStart
  split
  · next hi =>
    split
    · next hok => exact engInv_emptyLatch (engInv_applyStart hv h hi hok k)
    · exact engInv_emptyLatch h
  · split
    · exact engInv_emptyLatch h
    · exact h
  · exact h

/-- SOFT_STOP is applied at index 0, where the PID state is clear (40 R138, 42 R215). -/
theorem engInv_acceptSoftStop {s : State} (h : EngInv s) : EngInv (acceptSoftStop s) := by
  unfold acceptSoftStop
  split
  · exact engInv_emptyLatch h
  · next he =>
    split
    · next hstart =>
      simp only [atCycleStart, Bool.and_eq_true, beq_iff_eq] at hstart
      exact engInv_emptyLatch { h with
        idle_clear := nofun
        open_clear := by simp
        soft_stop_clear := fun _ => .inl (h.start_clear hstart.2).1
        window := fun hw => ⟨.inr rfl, (h.window hw).2⟩
        inc_pos := fun _ => h.inc_pos (by simp [he])
        soft_start_count := nofun
        ping_count := nofun
        zero_count := fun hs => absurd rfl hs
        faults_stop := fun _ => .inr rfl }
    · exact h
  · exact h

theorem engInv_clearTick {s t : State} (hv : s.cfg.valid = true) (h : EngInv s) (ht : clearTick s = .next t) :
    EngInv t := by
  cases ht
  exact engInv_emptyLatch (engInv_engineClear hv (engInv_beginTick h))

theorem engInv_commandTick {f : State → State} {s t : State} (hv : s.cfg.valid = true) (h : EngInv s)
    (hf : ∀ u, u.cfg.valid = true → EngInv u → EngInv (f u)) (hc : ∀ u, (f u).cfg = u.cfg)
    (ht : commandTick f s = .next t) : EngInv t := by
  have hb := engInv_beginTick h
  obtain ⟨-, -, rfl⟩ | ht := commandTick_next ht
  · exact engInv_engineClear hv hb
  · exact engInv_finishTick (by rwa [hc]) (hf (beginTick s) hv hb) ht

@[simp] theorem acceptStart_cfg (k : StartCmd) (s : State) : (acceptStart k s).cfg = s.cfg := by
  unfold acceptStart; split <;> (try split) <;> simp

@[simp] theorem acceptSoftStop_cfg (s : State) : (acceptSoftStop s).cfg = s.cfg := by
  unfold acceptSoftStop; split <;> (try split) <;> simp

theorem engInv_exec_command {i : Instr} {s t : State} (h : EngInv s) (hv : s.cfg.valid = true)
    (hi : i.format = .cmd8) (ht : exec i s = .next t) : EngInv t := by
  cases i, hi using cmd8_cases with
  | none => exact engInv_commandTick (f := fun u => u) hv h (fun _ _ hu => hu) (fun _ => rfl) ht
  | reset => exact engInv_clearTick hv h ht
  | softStart => exact engInv_commandTick hv h (fun _ hv hu => engInv_acceptStart hv hu _) (acceptStart_cfg _) ht
  | start => exact engInv_commandTick hv h (fun _ hv hu => engInv_acceptStart hv hu _) (acceptStart_cfg _) ht
  | ping => exact engInv_commandTick hv h (fun _ hv hu => engInv_acceptStart hv hu _) (acceptStart_cfg _) ht
  | softStop => exact engInv_commandTick hv h (fun _ _ => engInv_acceptSoftStop) acceptSoftStop_cfg ht
  | stop => exact engInv_clearTick hv h ht

theorem engInv_engTick {s t : State} (h : EngInv s) (hv : s.cfg.valid = true) (ht : engTick s = .next t) :
    EngInv t := by
  rcases fetchCommand_state s with hs | hs <;> rw [engTick, hs] at ht
  · exact engInv_exec_command h hv (fetchCommand_format s) ht
  · exact engInv_exec_command (engInv_emptyLatch h) hv (fetchCommand_format s) ht

/-! ### The events -/

theorem sameEngine_tickZc (j : ZcId) (s : State) : SameEngine s (tickZc j s) := by
  cases j <;> constructor <;> rfl

theorem engInv_tickZc {s : State} (h : EngInv s) (j : ZcId) : EngInv (tickZc j s) :=
  engInv_of_sameEngine h (sameEngine_tickZc j s) (by cases j <;> exact .inl rfl) (by cases j <;> exact id)

/-- The charger's tick loads the safe window (43 R242). -/
theorem engInv_safeWindow {s : State} (h : EngInv s) : EngInv { s with safe.safeCyclesLeft := s.cfg.safeICycles } :=
  { h with
    idle_clear := fun hi => ⟨(pidPhaseClear_eq_iff _).2 ((pidPhaseClear_eq_iff s).1 (h.idle_clear hi).1),
      (h.idle_clear hi).2⟩
    safe_le := le_rfl }

theorem engInv_pwmTick {s t : State} (h : EngInv s) (hv : s.cfg.valid = true) (ht : pwmTick s = .next t) :
    EngInv t := by
  obtain ⟨-, u, hu, rfl⟩ | ⟨-, rfl⟩ | ⟨-, rfl⟩ := pwmTick_next ht
  · exact engInv_tickZc (engInv_engTick h hv hu) .inv
  · exact engInv_tickZc (engInv_safeWindow h) .chg
  · exact h

theorem engInv_exec_control {i : Instr} {s t : State} (hi : i.format = .ctrl32) (h : EngInv s)
    (ht : exec i s = .next t) : EngInv t := by
  obtain ⟨hs, hd, hrev, hshort⟩ := controlFrame_exec hi ht
  refine engInv_of_sameEngine h hs (.inl hd) (Or.imp (fun hf => ?_) fun hf => ?_)
  · rw [hrev] at hf
    split at hf <;> [cases hf; exact hf]
  · rw [hshort] at hf
    split at hf <;> [cases hf; exact hf]

theorem engInv_hwResetOp {s : State} (hv : s.cfg.valid = true) : EngInv (hwResetOp s) :=
  engInv_of_idle hv rfl
    ((pidPhaseClear_eq_iff _).2 (by simp [hwResetOp, State.resetWith, DriveRegs.reset])) rfl
    (by simp [hwResetOp, State.resetWith]) (Nat.zero_le _) (Nat.zero_le _)

theorem engInv_runEvent {e : Event} {s t : State} (h : EngInv s) (hv : s.cfg.valid = true)
    (ht : runEvent e s = .next t) : EngInv t := by
  have hports (p : Ports) : EngInv { s with ports := p } :=
    engInv_of_sameEngine h (by constructor <;> rfl) (.inl rfl) id
  cases e with
  | pwmTick => exact engInv_pwmTick (hports _) (by exact hv) ht
  | engTick => exact engInv_engTick (hports _) (by exact hv) ht
  | zcTick j => cases ht; exact engInv_tickZc (hports _) j
  | sampleTick =>
    cases ht
    rw [sampleTick_spec]
    split
    · exact engInv_of_sameEngine h (by constructor <;> rfl) (.inr rfl) id
    · exact hports _
  | zcTask =>
    cases ht
    exact engInv_of_sameEngine h (by constructor <;> simp) (.inl (by simp)) (by simp)
  | busWrite =>
    refine busWrite_induction ?_ (fun i hi s t hs => engInv_exec_control hi hs) h ht
    exact fun hs => engInv_of_sameEngine hs (by constructor <;> rfl) (.inl rfl) id
  | busRead => cases ht; exact engInv_of_sameEngine h (by constructor <;> rfl) (.inl rfl) id
  | hwReset => cases ht; exact engInv_hwResetOp hv

/-- Settles O53: the invariant inside a tick is kept by each part of it, the advance restores the whole
invariant, and every other event leaves the engine group alone or clears it. -/
theorem engineStaysSafe : Obligations.EngineStaysSafe := by
  intro s t h ht
  obtain ⟨hv, ⟨-, rfl⟩ | ⟨e, rest, -, hrun⟩⟩ := step_next ht
  · exact h
  · have hb : EngInv (beginEvent rest s) := engInv_of_sameEngine h (by constructor <;> rfl) (.inl rfl) id
    exact engInv_runEvent hb hv hrun

end Sys2Proof.Proofs
end

section
/-! PROOF. What a read of STATUS returns (obligation O15). -/

namespace Sys2Proof.Proofs

open Sys2Proof Sys2Proof.Machine Sys2Proof.Laws Sys2Proof.Claims

/-- A performed read (20_memory.md R75). -/
theorem busReadValue_at (s : State) {o : Nat} (h4 : o % 4 = 0) (hl : o ≤ 0x7FFFC) :
    busReadValue s (s.cfg.regBase + o) 4 = regRead s o := by
  have h : busOffset s.cfg (s.cfg.regBase + o) 4 = some o :=
    (busOffset_eq_some _ _ _ _).2 ⟨rfl, by omega, by omega, by omega, by omega⟩
  rw [busReadValue, h]

/-- Taking an event leaves every register as it reads. -/
theorem regRead_beginEvent (rest : List Event) (s : State) (o : Nat) :
    regRead (beginEvent rest s) o = regRead s o := by
  unfold regRead
  split
  · next r _ => cases r <;> rfl
  · rfl

/-- A read of a register returns its word and has no side effect (20 R78). -/
theorem readsWord_regRead {s : State} (hv : s.cfg.valid = true) {o : Nat} (h4 : o % 4 = 0) (hl : o ≤ 0x7FFFC) :
    readsWord s o (regRead s o) := fun rest => by
  rw [step_withEvents hv, runEvent, ← beginEvent_cfg rest s, busReadValue_at _ h4 hl, regRead_beginEvent]

/-- STATUS bit by bit, bit 0 first (10_state.md R45). -/
def statusBitList (s : State) : List Bool :=
  [s.seq.engState != .idle, s.ovl.event, s.ovl.state == .shutdown, s.flags.feedbackReversed,
   s.flags.outputShorted, s.zcChg.outputting, s.zcInv.outputting, s.flatTop.active,
   s.ovl.vdsThresholdActive, s.cmdLatch != 0]

theorem statusWord_getLsbD (s : State) (i : Nat) :
    (statusWord s).getLsbD i = (statusBitList s).getD i false := by
  simp only [statusWord, statusBitList, bit, BitVec.getLsbD_append, BitVec.getLsbD_ofBool]
  match i with
  | 0 | 1 | 2 | 3 | 4 | 5 | 6 | 7 | 8 | 9 => simp
  | n + 10 => simp

theorem statusWord_lt (s : State) : (statusWord s).toNat < 1024 :=
  Nat.lt_pow_two_of_testBit (n := 10) _ fun i hi => by
    rw [BitVec.testBit_toNat, statusWord_getLsbD, List.getD_eq_default _ _ hi]

/-- Settles O15: STATUS is read at its offset, and its bits are those of the list. -/
theorem statusBits : Obligations.StatusBits := by
  intro s hv
  have hbit := statusWord_getLsbD s
  refine ⟨statusWord s, readsWord_regRead hv (o := 4) rfl (by decide), statusWord_lt s, ?_, hbit 1, ?_, hbit 3,
    hbit 4, hbit 5, hbit 6, hbit 7, hbit 8, ?_⟩
  · rw [hbit 0]; simp [statusBitList]
  · rw [hbit 2]; simp [statusBitList]
  · rw [hbit 9, Ne, toNat_eq_zero_iff]; simp [statusBitList]

end Sys2Proof.Proofs
end

section
/-! PROOF. The rebalancing offset is an output only (obligation O52): every part of an event commutes with a
change of the offset, or leaves a new offset that nothing else depends on. -/

namespace Sys2Proof.Proofs

open Sys2Proof Sys2Proof.Machine Sys2Proof.Laws Sys2Proof.Claims

/-- The state with another rebalancing offset. -/
def setOffset (z : S16) (s : State) : State := { s with rebal.zcOffset := z }

/-- The operation lets the offset influence at most the offset. -/
def OffsetBlind (f : State → State) : Prop := ∀ z s, ∃ z', f (setOffset z s) = setOffset z' (f s)

theorem OffsetBlind.of_comm {f : State → State} (h : ∀ z s, f (setOffset z s) = setOffset z (f s)) :
    OffsetBlind f := fun z s => ⟨z, h z s⟩

/-- An operation that overwrites the offset. -/
theorem OffsetBlind.of_const {f : State → State} (h : ∀ z s, f (setOffset z s) = f s) : OffsetBlind f :=
  fun z s => ⟨(f s).rebal.zcOffset, h z s⟩

theorem OffsetBlind.comp {f g : State → State} (hg : OffsetBlind g) (hf : OffsetBlind f) :
    OffsetBlind fun s => g (f s) := fun z s => by
  obtain ⟨z1, h1⟩ := hf z s
  obtain ⟨z2, h2⟩ := hg z1 (f s)
  exact ⟨z2, (congrArg g h1).trans h2⟩

theorem OffsetBlind.ite {c : State → Prop} [DecidablePred c] {f g : State → State}
    (hc : ∀ z s, c (setOffset z s) ↔ c s) (hf : OffsetBlind f) (hg : OffsetBlind g) :
    OffsetBlind fun s => if c s then f s else g s := fun z s => by
  by_cases h : c s
  · simpa only [hc, h, if_true] using hf z s
  · simpa only [hc, h, if_false] using hg z s

/-! ### The tick up to its advance -/

theorem peakTests_setOffset (z : S16) (f : S17) (s : State) :
    peakTests f (setOffset z s) = setOffset z (peakTests f s) := by
  have hrev : reversedTest f (setOffset z s) = setOffset z (reversedTest f s) := by
    unfold reversedTest; rw [apply_ite (setOffset z)]; rfl
  have hzero : nearZeroTest f (setOffset z s) = setOffset z (nearZeroTest f s) := by
    unfold nearZeroTest; dsimp only; rw [apply_ite (setOffset z)]; rfl
  unfold peakTests
  rw [apply_ite (setOffset z)]
  cases he : s.seq.engState
  all_goals simp only [show (setOffset z s).seq = s.seq from rfl, he, hrev, hzero]; rfl

theorem closeFlatTop_setOffset (z : S16) (s : State) :
    closeFlatTop (setOffset z s) = setOffset z (closeFlatTop s) := by
  unfold closeFlatTop; rw [apply_ite (setOffset z)]; rfl

theorem integrate_setOffset (z : S16) (err : S32) (s : State) :
    integrate err (setOffset z s) = setOffset z (integrate err s) := by
  unfold integrate; rw [apply_ite (setOffset z)]; rfl

theorem openFlatTop_setOffset (z : S16) (raw : S32) (s : State) :
    openFlatTop raw (setOffset z s) = setOffset z (openFlatTop raw s) := by
  unfold openFlatTop; rw [apply_ite (setOffset z)]; rfl

theorem normalDuty_setOffset (z : S16) (t : U32) (b : Nat) (f : S17) (s : State) :
    normalDuty t b f (setOffset z s) = (setOffset z (normalDuty t b f s).1, (normalDuty t b f s).2) := by
  let err := pidError s.cfg t f s.ports.rmsOffset
  let s2 := integrate err (closeFlatTop s)
  let raw := rawDuty b err s2
  have hs2 : integrate err (closeFlatTop (setOffset z s)) = setOffset z s2 := by
    rw [closeFlatTop_setOffset, integrate_setOffset]
  have hs3 := openFlatTop_setOffset z raw { s2 with pid.prevError := err }
  have hduty := congrArg (fun w => reduceDuty (chooseDuty raw w) w) hs3
  unfold normalDuty
  dsimp only
  rw [show pidError (setOffset z s).cfg t f (setOffset z s).ports.rmsOffset = err from rfl, hs2]
  exact Prod.ext hs3 hduty

theorem tickDuty_setOffset (z : S16) (t : U32) (b : Nat) (f : S17) (s : State) :
    tickDuty t b f (setOffset z s) = (setOffset z (tickDuty t b f s).1, (tickDuty t b f s).2) := by
  unfold tickDuty
  rw [show (setOffset z s).seq = s.seq from rfl]
  split_ifs
  · exact normalDuty_setOffset z t b f s
  · rfl

theorem driveStep_setOffset (z : S16) (d : U16) (s : State) :
    driveStep d (setOffset z s) = setOffset z (driveStep d s) := by
  rw [driveStep_spec, driveStep_spec, apply_ite (setOffset z)]
  rfl

/-! ### The boundary -/

theorem offsetBlind_satIdle : OffsetBlind satIdle := .of_comm fun _ _ => rfl

/-- The one operation that reads the offset, to write it (44_clamp_saturation.md R272). -/
theorem offsetBlind_rebalance : OffsetBlind rebalance :=
  .ite (fun _ _ => Iff.rfl) (fun _ _ => ⟨_, rfl⟩)
    (.ite (fun _ _ => Iff.rfl) (fun _ _ => ⟨_, rfl⟩) (.of_comm fun _ _ => rfl))

theorem offsetBlind_saturationDetect : OffsetBlind saturationDetect :=
  .ite (fun _ _ => Iff.rfl) (.of_comm fun _ _ => rfl) offsetBlind_satIdle

theorem offsetBlind_fullCycleActions (b : Bool) : OffsetBlind (fullCycleActions b) := by
  have hdetect : OffsetBlind fun s =>
      if s.ramp.normHalves.toNat = 2 then saturationDetect (rebalance s) else satIdle s :=
    .ite (fun _ _ => Iff.rfl) (offsetBlind_saturationDetect.comp offsetBlind_rebalance) offsetBlind_satIdle
  cases b <;> exact hdetect.comp (.of_comm fun _ _ => rfl)

theorem offsetBlind_closeCycle (b : Bool) : OffsetBlind (closeCycle b) :=
  .ite (fun _ _ => Iff.rfl)
    (.ite (fun _ _ => Iff.rfl) ((offsetBlind_fullCycleActions b).comp (.of_comm fun _ _ => rfl))
      (.of_comm fun _ _ => rfl))
    (.of_comm fun _ _ => rfl)

theorem offsetBlind_softStartBoundary : OffsetBlind softStartBoundary :=
  .ite (fun _ _ => Iff.rfl) (.of_comm fun _ _ => rfl) (.of_comm fun _ _ => rfl)

theorem offsetBlind_pingBoundary : OffsetBlind pingBoundary :=
  .ite (fun _ _ => Iff.rfl) (.of_comm fun _ _ => rfl)
    (.ite (fun _ _ => Iff.rfl) ((offsetBlind_closeCycle false).comp (.of_comm fun _ _ => rfl))
      (.ite (fun _ _ => Iff.rfl) ((offsetBlind_closeCycle false).comp (.of_comm fun _ _ => rfl))
        ((offsetBlind_closeCycle false).comp (.of_comm fun _ _ => rfl))))

theorem offsetBlind_softStopBoundary : OffsetBlind softStopBoundary :=
  .ite (fun _ _ => Iff.rfl) (.of_comm fun _ _ => rfl) ((offsetBlind_closeCycle false).comp (.of_comm fun _ _ => rfl))

theorem offsetBlind_boundary : OffsetBlind boundary := fun z s => by
  have hcommon : OffsetBlind boundaryCommon := .of_comm fun _ _ => rfl
  unfold boundary
  rw [show (setOffset z s).seq = s.seq from rfl]
  cases s.seq.engState with
  | softStart => exact ((offsetBlind_closeCycle false).comp (offsetBlind_softStartBoundary.comp hcommon)) z s
  | ping => exact (offsetBlind_pingBoundary.comp hcommon) z s
  | softStop => exact (offsetBlind_softStopBoundary.comp hcommon) z s
  | normal => exact ((offsetBlind_closeCycle true).comp hcommon) z s
  | idle => exact ((offsetBlind_closeCycle false).comp hcommon) z s

theorem offsetBlind_advance : OffsetBlind advance :=
  .ite (fun _ _ => Iff.rfl) offsetBlind_boundary (.of_comm fun _ _ => rfl)

theorem offsetBlind_activeTick (t : U32) : OffsetBlind (activeTick t) := fun z s => by
  have htests : peakTests (fbSample (setOffset z s)) (shiftFeedback (setOffset z s)) =
      setOffset z (peakTests (fbSample s) (shiftFeedback s)) := peakTests_setOffset z _ (shiftFeedback s)
  unfold activeTick
  dsimp only
  rw [htests, tickDuty_setOffset, driveStep_setOffset]
  exact offsetBlind_advance z (accumulate _)

/-! ### The events -/

/-- The outcome with its next state changed. -/
def mapOut (f : State → State) : Out → Out
  | .next s => .next (f s)
  | .fault r => .fault r
  | .refused r => .refused r

/-- The offset influences neither whether the operation completes nor anything but the offset of what it
answers. -/
def OutBlind (f : State → Out) : Prop := ∀ z s, ∃ z', f (setOffset z s) = mapOut (setOffset z') (f s)

theorem OffsetBlind.out {f : State → State} (h : OffsetBlind f) : OutBlind fun s => .next (f s) := fun z s => by
  obtain ⟨z', h'⟩ := h z s
  exact ⟨z', congrArg Host.Outcome.next h'⟩

theorem OutBlind.comp {g : State → Out} {f : State → State} (hg : OutBlind g) (hf : OffsetBlind f) :
    OutBlind fun s => g (f s) := fun z s => by
  obtain ⟨z1, h1⟩ := hf z s
  obtain ⟨z2, h2⟩ := hg z1 (f s)
  exact ⟨z2, (congrArg g h1).trans h2⟩

theorem OutBlind.ite {c : State → Prop} [DecidablePred c] {f g : State → Out}
    (hc : ∀ z s, c (setOffset z s) ↔ c s) (hf : OutBlind f) (hg : OutBlind g) :
    OutBlind fun s => if c s then f s else g s := fun z s => by
  by_cases h : c s
  · simpa only [hc, h, if_true] using hf z s
  · simpa only [hc, h, if_false] using hg z s

theorem OutBlind.andThen {f g : State → Out} (hf : OutBlind f) (hg : OutBlind g) :
    OutBlind fun s => andThen (f s) g := fun z s => by
  obtain ⟨z1, h1⟩ := hf z s
  dsimp only
  rw [h1]
  cases f s with
  | next u => exact hg z1 u
  | fault r => exact ⟨z, rfl⟩
  | refused r => exact ⟨z, rfl⟩

theorem outBlind_finishTick : OutBlind finishTick :=
  .ite (fun _ _ => Iff.rfl) (OffsetBlind.of_comm fun _ _ => rfl).out fun z s => by
    rw [show (setOffset z s).cfg = s.cfg from rfl, show (setOffset z s).seq = s.seq from rfl]
    cases s.cfg.table[s.seq.idx.toNat]? with
    | some t => exact (offsetBlind_activeTick t).out z s
    | none => exact ⟨z, rfl⟩

theorem outBlind_commandTick {f : State → State} (hf : OffsetBlind f) : OutBlind (commandTick f) :=
  .ite (fun _ _ => Iff.rfl) (OffsetBlind.of_const fun _ _ => rfl).out
    (outBlind_finishTick.comp (hf.comp (.of_comm fun _ _ => rfl)))

theorem outBlind_clearTick : OutBlind clearTick := (OffsetBlind.of_const fun _ _ => rfl).out

theorem offsetBlind_acceptStart (k : StartCmd) : OffsetBlind (acceptStart k) := fun z s => by
  have hidle : OffsetBlind fun s => emptyLatch (if startAllowed s then applyStart k s else s) :=
    (OffsetBlind.of_comm fun _ _ => rfl).comp
      (.ite (fun _ _ => Iff.rfl) (.of_comm fun _ _ => rfl) (.of_comm fun _ _ => rfl))
  have hnormal : OffsetBlind fun s => if atCycleStart s then emptyLatch s else s :=
    .ite (fun _ _ => Iff.rfl) (.of_comm fun _ _ => rfl) (.of_comm fun _ _ => rfl)
  unfold acceptStart
  rw [show (setOffset z s).seq = s.seq from rfl]
  cases s.seq.engState with
  | idle => exact hidle z s
  | normal => exact hnormal z s
  | softStart => exact ⟨z, rfl⟩
  | ping => exact ⟨z, rfl⟩
  | softStop => exact ⟨z, rfl⟩

theorem offsetBlind_acceptSoftStop : OffsetBlind acceptSoftStop := fun z s => by
  have hnormal : OffsetBlind fun s => if atCycleStart s then emptyLatch { s with seq.engState := .softStop } else s :=
    .ite (fun _ _ => Iff.rfl) (.of_comm fun _ _ => rfl) (.of_comm fun _ _ => rfl)
  unfold acceptSoftStop
  cases he : s.seq.engState with
  | idle => exact ⟨z, by rw [show (setOffset z s).seq.engState = _ from he]; rfl⟩
  | normal => simpa only [show (setOffset z s).seq.engState = _ from he] using hnormal z s
  | softStart => exact ⟨z, by rw [show (setOffset z s).seq.engState = _ from he]⟩
  | ping => exact ⟨z, by rw [show (setOffset z s).seq.engState = _ from he]⟩
  | softStop => exact ⟨z, by rw [show (setOffset z s).seq.engState = _ from he]⟩

theorem outBlind_exec (i : Instr) : OutBlind (exec i) := by
  cases i with
  | none => exact outBlind_commandTick (f := fun u => u) (.of_comm fun _ _ => rfl)
  | reset => exact outBlind_clearTick
  | softStart => exact outBlind_commandTick (offsetBlind_acceptStart _)
  | start => exact outBlind_commandTick (offsetBlind_acceptStart _)
  | ping => exact outBlind_commandTick (offsetBlind_acceptStart _)
  | softStop => exact outBlind_commandTick offsetBlind_acceptSoftStop
  | stop => exact outBlind_clearTick
  | ovlReset => exact (OffsetBlind.of_comm fun _ _ => rfl).out
  | zcStopChg => exact (OffsetBlind.of_comm fun _ _ => rfl).out
  | zcStopInv => exact (OffsetBlind.of_comm fun _ _ => rfl).out
  | clrFbReversed => exact (OffsetBlind.of_comm fun _ _ => rfl).out
  | clrOutShorted => exact (OffsetBlind.of_comm fun _ _ => rfl).out

theorem outBlind_engTick : OutBlind engTick := fun z s => by
  have hfetch : fetchCommand (setOffset z s) = ((fetchCommand s).1, setOffset z (fetchCommand s).2) := by
    unfold fetchCommand
    rw [show (setOffset z s).cmdLatch = s.cmdLatch from rfl]
    cases decodeCmd s.cmdLatch <;> rfl
  unfold engTick
  rw [hfetch]
  exact outBlind_exec _ z _

theorem offsetBlind_tickZc (j : ZcId) : OffsetBlind (tickZc j) := by
  cases j <;> exact .of_comm fun _ _ => rfl

theorem outBlind_pwmTick : OutBlind pwmTick := fun z s => by
  have hinv := outBlind_engTick.andThen (offsetBlind_tickZc .inv).out
  have hchg : OffsetBlind fun s => tickZc .chg { s with safe.safeCyclesLeft := s.cfg.safeICycles } :=
    (offsetBlind_tickZc .chg).comp (.of_comm fun _ _ => rfl)
  unfold pwmTick
  rw [show (setOffset z s).ports = s.ports from rfl]
  cases s.ports.handler with
  | inverter => exact hinv z s
  | charger => exact hchg.out z s
  | default => exact ⟨z, rfl⟩
  | bootCharge => exact ⟨z, rfl⟩

theorem outBlind_runControls (is : List Instr) : OutBlind (runControls is) := by
  induction is with
  | nil => exact (OffsetBlind.of_comm fun _ _ => rfl).out
  | cons i is ih => exact (outBlind_exec i).andThen ih

theorem outBlind_busWrite (a n : Nat) (v : U32) : OutBlind (busWrite a n v) := fun z s => by
  unfold busWrite
  rw [show (setOffset z s).cfg = s.cfg from rfl]
  cases busOffset s.cfg a n with
  | none => exact ⟨z, rfl⟩
  | some o =>
    unfold regWrite
    dsimp only
    split
    · exact ⟨z, rfl⟩
    · exact outBlind_runControls _ z s

theorem offsetBlind_sampleTick : OffsetBlind sampleTick :=
  .ite (fun _ _ => Iff.rfl) (.of_comm fun _ _ => rfl) (.of_comm fun _ _ => rfl)

theorem offsetBlind_zcTask : OffsetBlind zcTask := fun z s => by
  have hstart : OffsetBlind ovlStart := .ite (fun _ _ => Iff.rfl) (.of_comm fun _ _ => rfl) (.of_comm fun _ _ => rfl)
  have hloose : OffsetBlind ovlLoose :=
    .ite (fun _ _ => Iff.rfl) (.of_comm fun _ _ => rfl)
      (.ite (fun _ _ => Iff.rfl) (.of_comm fun _ _ => rfl) (.of_comm fun _ _ => rfl))
  have htight : OffsetBlind ovlTight :=
    .ite (fun _ _ => Iff.rfl) (.of_comm fun _ _ => rfl)
      (.ite (fun _ _ => Iff.rfl) (.of_comm fun _ _ => rfl) (.of_comm fun _ _ => rfl))
  have hbegin : OffsetBlind ovlStepBegin := .of_comm fun _ _ => rfl
  have hcount : OffsetBlind fun s => ovlCount (overloadCond s) (ovlStepBegin s) := .of_comm fun _ _ => rfl
  have hnone : OffsetBlind fun s => if overloadCond s then ovlStart (ovlStepBegin s) else ovlStepBegin s :=
    .ite (fun _ _ => Iff.rfl) (hstart.comp hbegin) hbegin
  unfold zcTask
  rw [show (setOffset z s).ovl = s.ovl from rfl]
  cases s.ovl.state with
  | none => exact hnone z s
  | shortOverload => exact (hloose.comp hcount) z s
  | sustainedOverload => exact (htight.comp hcount) z s
  | shutdown => exact hbegin z s

theorem outBlind_runEvent (e : Event) (he : ∀ a n, e ≠ .busRead a n) : OutBlind (runEvent e) := by
  cases e with
  | pwmTick => exact outBlind_pwmTick.comp (.of_comm fun _ _ => rfl)
  | engTick => exact outBlind_engTick.comp (.of_comm fun _ _ => rfl)
  | zcTick j => exact ((offsetBlind_tickZc j).comp (.of_comm fun _ _ => rfl)).out
  | sampleTick => exact (offsetBlind_sampleTick.comp (.of_comm fun _ _ => rfl)).out
  | zcTask => exact (offsetBlind_zcTask.comp (.of_comm fun _ _ => rfl)).out
  | busWrite => exact outBlind_busWrite _ _ _
  | busRead => exact absurd rfl (he _ _)
  | hwReset => exact (OffsetBlind.of_const fun _ _ => rfl).out

/-- Settles O52: an event other than a register read does not see the offset. -/
theorem offsetIsReadByNothing : Obligations.OffsetIsReadByNothing := by
  intro s t u z e rest he ht hu
  obtain ⟨z', h⟩ := outBlind_runEvent e he z (beginEvent rest s)
  rw [runEvent_of_step ht, show setOffset z (beginEvent rest s) = beginEvent rest (setOffset z s) from rfl] at h
  cases h.symm.trans (runEvent_of_step hu)
  rfl

end Sys2Proof.Proofs
end

section
/-! PROOF. Host accesses to the register space: the writes to the four writable registers, every other access,
and the registers after reset (obligations O12, O13, O14, O18). -/

namespace Sys2Proof.Proofs

open Sys2Proof Sys2Proof.Machine Sys2Proof.Laws Sys2Proof.Claims

/-! ### Performed writes -/

/-- A step that performs a write is the write at its offset (20_memory.md R75). -/
theorem step_writeAt {s : State} (hv : s.cfg.valid = true) {o : Nat} (h4 : o % 4 = 0) (hl : o ≤ 0x7FFFC)
    (v : U32) (rest : List Event) :
    step (withEvents s (.busWrite (s.cfg.regBase + o) 4 v :: rest)) = regWrite o v (beginEvent rest s) := by
  rw [step_withEvents hv, runEvent, ← beginEvent_cfg rest s, busWrite_at v h4 hl]

/-- Settles O12: the write at offset 0 is `cmd_write`. -/
theorem commandWriteFillsOnlyTheLatch : Obligations.CommandWriteFillsOnlyTheLatch := by
  intro s v rest hv
  exact ⟨cmdWrite v (beginEvent rest s), step_writeAt hv (o := 0) rfl (Nat.zero_le _) v rest,
    BitVec.toNat_setWidth 8 v, rfl⟩

/-! ### The control registers -/

theorem decodeCtrl_status (v : U32) : decodeCtrl 0x04 v =
    (if v.getLsbD 3 then [.clrFbReversed] else []) ++ (if v.getLsbD 4 then [.clrOutShorted] else []) := by
  have h3 : v &&& 8 = 8 ↔ v.getLsbD 3 = true := and_twoPow_eq v 3 (by decide)
  have h4 : v &&& 16 = 16 ↔ v.getLsbD 4 = true := and_twoPow_eq v 4 (by decide)
  simp only [decodeCtrl_cases, h3, h4]
  simp

theorem decodeCtrl_ovlCtrl (v : U32) : decodeCtrl 0x28 v = if v.getLsbD 0 then [.ovlReset] else [] := by
  have h0 : v &&& 1 = 1 ↔ v.getLsbD 0 = true := and_twoPow_eq v 0 (by decide)
  simp only [decodeCtrl_cases, h0]
  simp

theorem decodeCtrl_zcCtrl (v : U32) : decodeCtrl 0x3C v =
    (if v.getLsbD 0 then [.zcStopChg] else []) ++ (if v.getLsbD 1 then [.zcStopInv] else []) := by
  have h0 : v &&& 1 = 1 ↔ v.getLsbD 0 = true := and_twoPow_eq v 0 (by decide)
  have h1 : v &&& 2 = 2 ↔ v.getLsbD 1 = true := and_twoPow_eq v 1 (by decide)
  simp only [decodeCtrl_cases, h0, h1]
  simp

/-- The operations of a word run one after the other (30_encoding.md R118). -/
theorem runControls_append (is js : List Instr) (s : State) :
    runControls (is ++ js) s = andThen (runControls is s) (runControls js) := by
  induction is generalizing s with
  | nil => rfl
  | cons i is ih =>
    rw [List.cons_append, runControls, runControls]
    cases exec i s with
    | next u => exact ih u
    | fault r => rfl
    | refused r => rfl

/-- One decoded bit of a word: its operation runs if the bit is set. -/
theorem runControls_bit {i : Instr} {f : State → State} (hi : ∀ s, exec i s = .next (f s)) (b : Bool) (s : State) :
    runControls (if b then [i] else []) s = .next (if b then f s else s) := by
  cases b with
  | false => rfl
  | true => simp only [if_true, runControls, hi, andThen]

theorem regWrite_status (v : U32) (s : State) : regWrite 0x04 v s = .next { s with
    flags := ⟨s.flags.feedbackReversed && !v.getLsbD 3, s.flags.outputShorted && !v.getLsbD 4⟩ } := by
  rw [regWrite, if_neg (by decide), decodeCtrl_status, runControls_append,
    runControls_bit (i := .clrFbReversed) (f := clearFbReversed) (fun _ => rfl), andThen,
    runControls_bit (i := .clrOutShorted) (f := clearOutShorted) (fun _ => rfl)]
  cases v.getLsbD 3 <;> cases v.getLsbD 4 <;> simp [clearFbReversed, clearOutShorted]

theorem regWrite_ovlCtrl (v : U32) (s : State) : regWrite 0x28 v s = .next { s with
    ovl := if v.getLsbD 0 then ⟨false, 0, .none, 0, 0, s.ovl.retryCount, false⟩ else s.ovl } := by
  rw [regWrite, if_neg (by decide), decodeCtrl_ovlCtrl,
    runControls_bit (i := .ovlReset) (f := ovlResetOp) (fun _ => rfl)]
  cases v.getLsbD 0 <;> rfl

theorem regWrite_zcCtrl (v : U32) (s : State) : regWrite 0x3C v s = .next { s with
    zcChg := { s.zcChg with stopReq := s.zcChg.stopReq || v.getLsbD 0 }
    zcInv := { s.zcInv with stopReq := s.zcInv.stopReq || v.getLsbD 1 } } := by
  rw [regWrite, if_neg (by decide), decodeCtrl_zcCtrl, runControls_append,
    runControls_bit (i := .zcStopChg) (f := zcStopOp .chg) (fun _ => rfl), andThen,
    runControls_bit (i := .zcStopInv) (f := zcStopOp .inv) (fun _ => rfl)]
  cases v.getLsbD 0 <;> cases v.getLsbD 1 <;> simp [zcStopOp, setZc, getZc]

/-- Settles O13: the write of each control register runs the operations of its decoded bits. -/
theorem controlRegistersActOnTheirBits : Obligations.ControlRegistersActOnTheirBits := by
  intro s v rest hv
  refine ⟨?_, ?_, ?_⟩
  · exact (step_writeAt hv rfl (by decide) v rest).trans (regWrite_status v _)
  · exact (step_writeAt hv rfl (by decide) v rest).trans (regWrite_ovlCtrl v _)
  · exact (step_writeAt hv rfl (by decide) v rest).trans (regWrite_zcCtrl v _)

/-! ### The other accesses -/

/-- A register that is not writable ignores the write (20_memory.md R76, R77). -/
theorem regWrite_other {o : Nat} (ho : o ∉ [0x00, 0x04, 0x28, 0x3C]) (v : U32) (s : State) :
    regWrite o v s = .next s := by
  simp only [List.mem_cons, List.not_mem_nil, or_false, not_or] at ho
  obtain ⟨hcmd, hstatus, hovl, hzc⟩ := ho
  rw [regWrite, if_neg (show o ≠ cmdOffset from hcmd), decodeCtrl_cases]
  simp [hstatus, hovl, hzc, runControls]

/-- No named register lies beyond ZC_FILT2_INV. -/
theorem regOffset_le (r : Reg) : regOffset r ≤ 0x88 := by cases r <;> decide

theorem mem_regList (r : Reg) : r ∈ regList := by cases r <;> decide

theorem regRead_beyond {o : Nat} (ho : 0x88 < o) (s : State) : regRead s o = windowRead s o := by
  have hnone : regList.find? (fun r => regOffset r == o) = none :=
    List.find?_eq_none.2 fun r _ => by
      have := regOffset_le r
      simp only [beq_iff_eq]; omega
  rw [regRead, hnone]

/-- The write-only registers and the reserved offsets (20_memory.md R74, R76, R77). -/
def ReadsZero (o : Nat) : Prop :=
  o ∈ [0x28, 0x3C, 0x7C] ∨ (0x8C ≤ o ∧ o < 0x400) ∨ (0x800 ≤ o ∧ o < 0x40000)

theorem windowRead_reserved {o : Nat} (hlow : ¬ (0x400 ≤ o ∧ o < 0x800))
    (hhigh : ¬ (0x40000 ≤ o ∧ o < 0x80000)) (s : State) : windowRead s o = 0 := by
  rw [windowRead, if_neg hlow, if_neg hhigh]

theorem regRead_readsZero {o : Nat} (ho : ReadsZero o) (s : State) : regRead s o = 0 := by
  rcases ho with ho | ho | ho
  · simp only [List.mem_cons, List.not_mem_nil, or_false] at ho
    rcases ho with rfl | rfl | rfl <;> rfl
  · rw [regRead_beyond (by omega), windowRead_reserved (by omega) (by omega)]
  · rw [regRead_beyond (by omega), windowRead_reserved (by omega) (by omega)]

/-- An access that is not performed (20_memory.md R75). -/
def NotPerformed (c : Cfg) (addr bytes : Nat) : Prop :=
  bytes ≠ 4 ∨ addr < c.regBase ∨ (addr - c.regBase) % 4 ≠ 0 ∨ 0x80000 ≤ addr - c.regBase

/-- If an access is not performed or its offset has a property, it reaches no offset or one that has it. -/
theorem busOffset_cases {c : Cfg} {addr bytes : Nat} {P : Nat → Prop}
    (h : NotPerformed c addr bytes ∨ P (addr - c.regBase)) :
    busOffset c addr bytes = none ∨ ∃ o, busOffset c addr bytes = some o ∧ P o := by
  cases ho : busOffset c addr bytes with
  | none => exact .inl rfl
  | some o =>
    obtain ⟨hbytes, hbase, halign, hend, rfl⟩ := (busOffset_eq_some c addr bytes o).1 ho
    refine .inr ⟨_, rfl, h.resolve_left ?_⟩
    rintro (h | h | h | h) <;> omega

theorem busWrite_ignored {s : State} {addr bytes : Nat}
    (h : NotPerformed s.cfg addr bytes ∨ addr - s.cfg.regBase ∉ [0x00, 0x04, 0x28, 0x3C]) (v : U32) :
    busWrite addr bytes v s = .next s := by
  obtain ho | ⟨o, ho, hmem⟩ := busOffset_cases (P := (· ∉ [0x00, 0x04, 0x28, 0x3C])) h
  · rw [busWrite, ho]
  · rw [busWrite, ho]; exact regWrite_other hmem v s

theorem busReadValue_zero {s : State} {addr bytes : Nat}
    (h : NotPerformed s.cfg addr bytes ∨ ReadsZero (addr - s.cfg.regBase)) : busReadValue s addr bytes = 0 := by
  obtain ho | ⟨o, ho, hzero⟩ := busOffset_cases h
  · rw [busReadValue, ho]
  · rw [busReadValue, ho]; exact regRead_readsZero hzero s

/-- Settles O14: an access that is performed all the same is at an offset that ignores it. -/
theorem otherAccessesDoNothing : Obligations.OtherAccessesDoNothing := by
  intro s addr bytes v rest hv
  refine ⟨fun h => ?_, fun h => ?_⟩
  · rw [step_withEvents hv, runEvent, busWrite_ignored]
    rw [NotPerformed]; tauto
  · rw [step_withEvents hv, runEvent, busReadValue_zero]
    rw [NotPerformed, ReadsZero]; tauto

/-! ### The registers after reset -/

/-- Every named register is zero after reset, but OVERRIDE, which forces both pairs (70_reset_and_hazards.md
R450). -/
theorem regView_resetWith (c : Cfg) (r : Reg) :
    regView (State.resetWith c) r = if r = .override then 5 else 0 := by
  have hfix : regView (State.resetWith c) r = regView State.reset r := by cases r <;> rfl
  rw [hfix]
  cases r <;> decide

theorem regOffset_eq_override (r : Reg) : regOffset r = 0x38 ↔ r = .override := by cases r <;> decide

/-- The windows after reset: a zero delay line, and the table (30_encoding.md R117). -/
theorem windowRead_resetWith (c : Cfg) {k : Nat} (hk : k < 0x20000) :
    windowRead (State.resetWith c) (4 * k) = if 0x10000 ≤ k then c.table.getD (k - 0x10000) 0 else 0 := by
  unfold windowRead
  split
  · rw [if_neg (by omega)]
    split
    · next v hv => rw [List.eq_of_mem_replicate (List.mem_of_getElem? hv)]; rfl
    · rfl
  · by_cases hwin : 0x10000 ≤ k
    · rw [if_pos (by omega), if_pos hwin, show (4 * k - 0x40000) / 4 = k - 0x10000 by omega,
        show (State.resetWith c).cfg = c from rfl, List.getD_eq_getElem?_getD]
      cases c.table[k - 0x10000]? <;> rfl
    · rw [if_neg (by omega), if_neg hwin]

theorem regRead_resetWith (c : Cfg) {k : Nat} (hk : k < 0x20000) :
    regRead (State.resetWith c) (4 * k) =
      if k = 0x38 / 4 then 5 else if 0x10000 ≤ k then c.table.getD (k - 0x10000) 0 else 0 := by
  unfold regRead
  split
  · next r hr =>
    have hoff : regOffset r = 4 * k := by simpa using List.find?_some hr
    have hle := regOffset_le r
    have hover : r = .override ↔ k = 0x38 / 4 := by rw [← regOffset_eq_override, hoff]; omega
    simp only [regView_resetWith, hover, if_neg (show ¬ 0x10000 ≤ k by omega)]
  · next hnone =>
    have hk' : regOffset .override ≠ 4 * k := by simpa using List.find?_eq_none.1 hnone _ (mem_regList .override)
    rw [if_neg (by rw [regOffset] at hk'; omega), windowRead_resetWith c hk]

/-- Settles O18: a read at a word offset returns what the register shows after reset. -/
theorem registersAfterReset : Obligations.RegistersAfterReset := by
  intro c hv k hk
  exact ⟨_, readsWord_regRead (s := State.resetWith c) hv (by omega) (by omega), regRead_resetWith c hk⟩

end Sys2Proof.Proofs
end

section
/-! PROOF. What no event writes: the parameter record and the events to come (obligation O47). -/

namespace Sys2Proof.Proofs

open Sys2Proof Sys2Proof.Machine Sys2Proof.Laws Sys2Proof.Claims

/-- `t` has the parameter record of `s` and the same events to come. -/
structure SameOutside (s t : State) : Prop where
  cfg : t.cfg = s.cfg
  events : t.events = s.events

theorem SameOutside.trans {s u t : State} (h : SameOutside s u) (k : SameOutside u t) : SameOutside s t :=
  ⟨k.cfg.trans h.cfg, k.events.trans h.events⟩

theorem sameOutside_tickZc (j : ZcId) (s : State) : SameOutside s (tickZc j s) := by
  cases j <;> exact ⟨rfl, rfl⟩

theorem sameOutside_engTick {s t : State} (h : engTick s = .next t) : SameOutside s t :=
  ⟨(tickFrame_engTick h).cfg, (tickFrame_engTick h).events⟩

theorem sameOutside_pwmTick {s t : State} (h : pwmTick s = .next t) : SameOutside s t := by
  obtain ⟨-, u, hu, rfl⟩ | ⟨-, rfl⟩ | ⟨-, rfl⟩ := pwmTick_next h
  · exact (sameOutside_engTick hu).trans (sameOutside_tickZc .inv u)
  · exact ⟨rfl, rfl⟩
  · exact ⟨rfl, rfl⟩

theorem sameOutside_exec_control {i : Instr} {s t : State} (hi : i.format = .ctrl32) (h : exec i s = .next t) :
    SameOutside s t := by
  cases i, hi using ctrl32_cases with
  | ovlReset => cases h; exact ⟨rfl, rfl⟩
  | zcStopChg => cases h; exact ⟨rfl, rfl⟩
  | zcStopInv => cases h; exact ⟨rfl, rfl⟩
  | clrFbReversed => cases h; exact ⟨rfl, rfl⟩
  | clrOutShorted => cases h; exact ⟨rfl, rfl⟩

theorem sameOutside_busWrite {a n : Nat} {v : U32} {s t : State} (h : busWrite a n v s = .next t) :
    SameOutside s t :=
  busWrite_induction (P := SameOutside s) (fun hs => hs.trans ⟨rfl, rfl⟩)
    (fun _ hi _ _ hs hw => hs.trans (sameOutside_exec_control hi hw)) ⟨rfl, rfl⟩ h

theorem sameOutside_runEvent {e : Event} {s t : State} (h : runEvent e s = .next t) : SameOutside s t := by
  cases e with
  | pwmTick => have hk := sameOutside_pwmTick h; exact ⟨hk.cfg, hk.events⟩
  | engTick => have hk := sameOutside_engTick h; exact ⟨hk.cfg, hk.events⟩
  | zcTick j => cases h; cases j <;> exact ⟨rfl, rfl⟩
  | sampleTick => cases h; exact ⟨sampleTick_cfg _, sampleTick_events _⟩
  | zcTask => cases h; exact ⟨zcTask_cfg _, zcTask_events _⟩
  | busWrite => exact sameOutside_busWrite h
  | busRead => cases h; exact ⟨rfl, rfl⟩
  | hwReset => cases h; exact ⟨rfl, rfl⟩

/-- Settles O47: no event writes the record. -/
theorem parametersNeverChange : Obligations.ParametersNeverChange := by
  intro s t h
  obtain ⟨-, ⟨-, rfl⟩ | ⟨e, rest, -, hrun⟩⟩ := step_next h
  · rfl
  · exact (sameOutside_runEvent hrun).cfg

/-- A step takes the first of the events to come, if there is one. -/
theorem events_of_step {s t : State} (h : step s = .next t) : t.events = s.events.tail := by
  obtain ⟨-, ⟨he, rfl⟩ | ⟨e, rest, he, hrun⟩⟩ := step_next h
  · rw [he]; rfl
  · rw [(sameOutside_runEvent hrun).events, he]; rfl

end Sys2Proof.Proofs
end

section
/-! PROOF. Every step keeps the overload invariant (part of obligation O57). -/

namespace Sys2Proof.Proofs

open Sys2Proof Sys2Proof.Machine Sys2Proof.Laws Sys2Proof.Claims

/-- The bounds of the overload parameters (00_scope.md R14). -/
theorem valid_ovlBounds {c : Cfg} (h : c.valid = true) :
    1 ≤ c.ovl.irmsTimeout.toNat ∧ 1 ≤ c.ovl.vdsTimeout.toNat ∧ 1 ≤ c.ovl.resetCount.toNat := by
  have hirms := meets_of_valid h .irmsTimeoutPos
  have hvds := meets_of_valid h .vdsTimeoutPos
  have hreset := meets_of_valid h .resetCountPos
  simp only [Cfg.meets, decide_eq_true_eq] at *
  exact ⟨hirms, hvds, hreset⟩

/-- The overload invariant looks at the record and the overload group only. -/
theorem ovlInv_congr {s t : State} (h : OvlInv s) (hc : t.cfg = s.cfg) (ho : t.ovl = s.ovl) : OvlInv t := by
  cases t
  dsimp only at hc ho
  subst hc ho
  exact { h with }

/-- A skip counted down stays within its bound (46_overload.md R364). -/
theorem ovlInv_skipCounted {s t : State} (h : OvlInv s) (hc : t.cfg = s.cfg) (hne : s.ovl.skipNextPulseCount ≠ 0)
    (ho : t.ovl = { s.ovl with skipNextPulseCount := s.ovl.skipNextPulseCount - 1 }) : OvlInv t := by
  have hskip : OvlInv { s with ovl.skipNextPulseCount := decU16 s.ovl.skipNextPulseCount } :=
    { h with skip_le := by have := h.skip_le; simp only [decU16_toNat]; omega }
  exact ovlInv_congr hskip hc (by rw [ho, decU16_of_ne_zero hne])

theorem ovlInv_tickFrame {s t : State} (h : OvlInv s) (hf : TickFrame s t) : OvlInv t := by
  rcases hf.ovl with ho | ⟨hne, ho⟩
  · exact ovlInv_congr h hf.cfg ho
  · exact ovlInv_skipCounted h hf.cfg hne ho

/-- The group as `hw_reset` leaves it, but for a retry count within its lockout (46 R379). -/
theorem ovlInv_reset {s t : State} (hv : s.cfg.valid = true) (hc : t.cfg = s.cfg) {r : U16}
    (ho : t.ovl = { OvlGroup.reset with retryCount := r }) (hr : r.toNat ≤ s.cfg.ovl.retryLockout.toNat) :
    OvlInv t :=
  have hreset : OvlInv { s with ovl := { OvlGroup.reset with retryCount := r } } :=
    { threshold := by simp [OvlGroup.reset]
      none_clear := fun _ => ⟨rfl, rfl⟩
      loose_count := nofun
      tight_count := nofun
      shutdown_count := nofun
      reset_count := (valid_ovlBounds hv).2.2
      retry_le := hr
      skip_le := Nat.zero_le _ }
  ovlInv_congr hreset hc ho

theorem ovlInv_sampleTick {s : State} (h : OvlInv s) : OvlInv (sampleTick s) := by
  rw [sampleTick_spec]
  split
  · exact { h with skip_le := le_rfl }
  · exact h

/-! ### The escalation machine (46_overload.md R370) -/

theorem ovlInv_ovlStepBegin {s : State} (h : OvlInv s) : OvlInv (ovlStepBegin s) :=
  { h with retry_le := by have := h.retry_le; simp only [ovlStepBegin, decU16_toNat]; omega }

/-- An episode starts loose, or tight if the lockout is still running (46 R372). -/
theorem ovlInv_ovlStart {s : State} (hv : s.cfg.valid = true) (h : OvlInv s) : OvlInv (ovlStart s) := by
  obtain ⟨hirms, hvds, hreset⟩ := valid_ovlBounds hv
  unfold ovlStart
  split
  · exact { h with
      threshold := by simp
      none_clear := nofun
      loose_count := fun _ => hirms
      tight_count := nofun
      shutdown_count := nofun
      reset_count := hreset }
  · exact { h with
      threshold := by simp
      none_clear := nofun
      loose_count := nofun
      tight_count := fun _ => hvds
      shutdown_count := nofun
      reset_count := hreset }

/-- The early clear ends an episode with no counts (46 R375). -/
theorem ovlInv_ovlEarlyClear {s : State} (hv : s.cfg.valid = true)
    (hr : s.ovl.retryCount.toNat ≤ s.cfg.ovl.retryLockout.toNat)
    (hs : s.ovl.skipNextPulseCount.toNat ≤ s.cfg.ovl.skipPulses.toNat) : OvlInv (ovlEarlyClear s) where
  threshold := by simp [ovlEarlyClear]
  none_clear := fun _ => ⟨rfl, rfl⟩
  loose_count := nofun
  tight_count := nofun
  shutdown_count := nofun
  reset_count := (valid_ovlBounds hv).2.2
  retry_le := hr
  skip_le := hs

/-- The loose phase, counted: it is cleared, tightened or goes on below both limits (46 R373, R375). -/
theorem ovlInv_ovlLoose {s : State} (hv : s.cfg.valid = true) (h : OvlInv s) (hs : s.ovl.state = .shortOverload)
    (cond : Bool) : OvlInv (ovlLoose (ovlCount cond s)) := by
  unfold ovlLoose
  split_ifs with hclear htime
  · exact ovlInv_ovlEarlyClear hv h.retry_le h.skip_le
  · obtain ⟨-, hvds, hreset⟩ := valid_ovlBounds hv
    exact { h with
      threshold := by simp [ovlTighten]
      none_clear := nofun
      loose_count := nofun
      tight_count := fun _ => hvds
      shutdown_count := nofun
      reset_count := hreset
      retry_le := le_rfl }
  · exact { h with
      none_clear := by simp [ovlCount, hs]
      loose_count := fun _ => Nat.lt_of_not_le htime
      tight_count := by simp [ovlCount, hs]
      shutdown_count := by simp [ovlCount, hs]
      reset_count := Nat.lt_of_not_le hclear }

/-- The tight phase, counted: it is cleared, shut down at exactly its timeout, or goes on (46 R374 to R376). -/
theorem ovlInv_ovlTight {s : State} (hv : s.cfg.valid = true) (h : OvlInv s) (hs : s.ovl.state = .sustainedOverload)
    (cond : Bool) : OvlInv (ovlTight (ovlCount cond s)) := by
  unfold ovlTight
  split_ifs with hclear htime
  · exact ovlInv_ovlEarlyClear hv h.retry_le h.skip_le
  · have hcount : incU16 s.ovl.cycleCount = s.cfg.ovl.vdsTimeout := by
      have hlt := h.tight_count hs
      have hmax := s.cfg.ovl.vdsTimeout.isLt
      simp only [ovlCount, incU16_toNat] at htime
      exact BitVec.eq_of_toNat_eq (by rw [incU16_toNat]; omega)
    exact { h with
      threshold := by simp [raiseFault, ovlCount, h.threshold, hs]
      none_clear := nofun
      loose_count := nofun
      tight_count := nofun
      shutdown_count := fun _ => hcount
      reset_count := Nat.lt_of_not_le hclear }
  · exact { h with
      none_clear := by simp [ovlCount, hs]
      loose_count := by simp [ovlCount, hs]
      tight_count := fun _ => Nat.lt_of_not_le htime
      shutdown_count := by simp [ovlCount, hs]
      reset_count := Nat.lt_of_not_le hclear }

theorem ovlInv_zcTask {s : State} (hv : s.cfg.valid = true) (h : OvlInv s) : OvlInv (zcTask s) := by
  have hbegin := ovlInv_ovlStepBegin h
  cases hs : s.ovl.state with
  | none =>
    rw [zcTask_none hs]
    split
    · exact ovlInv_ovlStart hv hbegin
    · exact hbegin
  | shortOverload => rw [zcTask_short hs]; exact ovlInv_ovlLoose (s := ovlStepBegin s) hv hbegin hs _
  | sustainedOverload => rw [zcTask_sustained hs]; exact ovlInv_ovlTight (s := ovlStepBegin s) hv hbegin hs _
  | shutdown => rw [zcTask_shutdown hs]; exact hbegin

/-! ### The events -/

theorem ovlInv_exec_control {i : Instr} {s t : State} (hv : s.cfg.valid = true) (hi : i.format = .ctrl32)
    (h : OvlInv s) (ht : exec i s = .next t) : OvlInv t := by
  cases i, hi using ctrl32_cases with
  | ovlReset => cases ht; exact ovlInv_reset hv rfl rfl h.retry_le
  | zcStopChg => cases ht; exact ovlInv_congr h rfl rfl
  | zcStopInv => cases ht; exact ovlInv_congr h rfl rfl
  | clrFbReversed => cases ht; exact ovlInv_congr h rfl rfl
  | clrOutShorted => cases ht; exact ovlInv_congr h rfl rfl

theorem ovlInv_tickZc {s : State} (h : OvlInv s) (j : ZcId) : OvlInv (tickZc j s) := by
  cases j <;> exact ovlInv_congr h rfl rfl

theorem ovlInv_pwmTick {s t : State} (h : OvlInv s) (ht : pwmTick s = .next t) : OvlInv t := by
  obtain ⟨-, u, hu, rfl⟩ | ⟨-, rfl⟩ | ⟨-, rfl⟩ := pwmTick_next ht
  · exact ovlInv_tickZc (ovlInv_tickFrame h (tickFrame_engTick hu)) .inv
  · exact ovlInv_tickZc (s := { s with safe.safeCyclesLeft := s.cfg.safeICycles }) (ovlInv_congr h rfl rfl) .chg
  · exact h

theorem ovlInv_busWrite {a n : Nat} {v : U32} {s t : State} (hv : s.cfg.valid = true) (h : OvlInv s)
    (ht : busWrite a n v s = .next t) : OvlInv t :=
  (busWrite_induction (P := fun u => u.cfg = s.cfg ∧ OvlInv u)
    (fun ⟨hc, hu⟩ => ⟨hc, ovlInv_congr hu rfl rfl⟩)
    (fun _ hi _ _ ⟨hc, hu⟩ hw =>
      ⟨(sameOutside_exec_control hi hw).cfg.trans hc, ovlInv_exec_control (hc ▸ hv) hi hu hw⟩)
    ⟨rfl, h⟩ ht).2

theorem ovlInv_runEvent {e : Event} {s t : State} (hv : s.cfg.valid = true) (h : OvlInv s)
    (ht : runEvent e s = .next t) : OvlInv t := by
  have hports (p : Ports) : OvlInv { s with ports := p } := ovlInv_congr h rfl rfl
  cases e with
  | pwmTick => exact ovlInv_pwmTick (hports _) ht
  | engTick => exact ovlInv_tickFrame (hports _) (tickFrame_engTick ht)
  | zcTick j => cases ht; exact ovlInv_tickZc (hports _) j
  | sampleTick => cases ht; exact ovlInv_sampleTick (hports _)
  | zcTask => cases ht; exact ovlInv_zcTask hv (hports _)
  | busWrite => exact ovlInv_busWrite hv h ht
  | busRead => cases ht; exact ovlInv_congr h rfl rfl
  | hwReset => cases ht; exact ovlInv_reset hv rfl rfl (Nat.zero_le _)

end Sys2Proof.Proofs
end

section
/-! PROOF. Every step keeps the invariant of both zero-crossing groups (part of obligation O57). -/

namespace Sys2Proof.Proofs

open Sys2Proof Sys2Proof.Machine Sys2Proof.Laws Sys2Proof.Claims

/-! ### The filter (45_zero_crossing_fsm.md R312, R318, R319) -/

/-- The first average needs a full history, in every part of a tick. -/
def HistoryFull (z : ZcInst) : Prop := z.havePrev = true → z.histFill = 3

/-- The invariant of a group right after `reset_to_init()`. -/
theorem zcInv_resetToInit {z : ZcInst} (hf : HistoryFull z) (c : ZcCfg) : ZcInv c (resetToInit z) where
  outputting_iff := rfl
  pos_band := rfl
  neg_band := rfl
  confirm := rfl
  init_count := fun _ => rfl
  wait_count := nofun
  lock_count := nofun
  prev_full := hf

theorem zcInv_stopCheck {c : ZcCfg} {z : ZcInst} (h : ZcInv c z) : ZcInv c (zcStopCheck z) := by
  unfold zcStopCheck
  split
  · exact zcInv_resetToInit (z := { z with stopReq := false }) h.prev_full c
  · exact h

theorem zcInv_pushSample {c : ZcCfg} {z : ZcInst} (h : ZcInv c z) (ac : U16) : ZcInv c (zcPushSample ac z) :=
  { h with
    prev_full := fun hp => by
      have hfull := h.prev_full hp
      simp [zcPushSample, hfull] }

/-! ### Accepted crossings and waiting -/

/-- An accepted crossing enters a state with the lengths measured so far in the band (45 R321 to R325). -/
theorem zcInv_accepted {c : ZcCfg} {z : ZcInst} {next : ZcState} {p q left : U16} {out : Bool}
    (hf : HistoryFull z) (hnext : next ≠ .init) (hout : out = locked next)
    (hpos : if posMeasured next then inBand c p = true else p = 0)
    (hneg : if negMeasured next then inBand c q = true else q = 0)
    (hleft : if confirming next then 1 ≤ left.toNat ∧ left.toNat ≤ c.zcConfirmTicks.toNat else left = 0) :
    ZcInv c { z with
      zcState := next, count := 0, posCount := p, negCount := q, outputting := out, confirmLeft := left } where
  outputting_iff := hout
  pos_band := hpos
  neg_band := hneg
  confirm := hleft
  init_count := fun hi => absurd hi hnext
  wait_count := fun _ => Nat.zero_le _
  lock_count := fun _ => Nat.zero_le _
  prev_full := hf

/-- A count that runs on within the limit of its state. -/
theorem zcInv_counted {c : ZcCfg} {z : ZcInst} (h : ZcInv c z) (hs : z.zcState ≠ .init) {n : U16}
    (hw : waiting z.zcState = true → n.toNat ≤ c.phaseCountMax.toNat)
    (hl : locked z.zcState = true → n.toNat ≤ expectedLen z + c.winEnd.toNat) : ZcInv c { z with count := n } :=
  { h with
    init_count := fun hi => absurd hi hs
    wait_count := hw
    lock_count := hl }

/-- In a locked state both lengths have been measured (45 R311). -/
theorem measured_of_locked {x : ZcState} (hx : locked x = true) :
    posMeasured x = true ∧ negMeasured x = true ∧ waiting x = false ∧ x ≠ .init := by
  revert hx
  cases x <;> decide

/-- A WAIT state: what is accepted has its length in the band, and the count gives up above its maximum (45
R321). -/
theorem zcInv_waitStep {c : ZcCfg} {z : ZcInst} (h : ZcInv c z) (hs : waiting z.zcState = true) {n : U16}
    {accepted : ZcInst × ZcPulses} (hacc : inBand c n = true → ZcInv c accepted.1) (hit ok : Bool) :
    ZcInv c (waitStep c hit ok accepted { z with count := n }).1 := by
  have hresync : ZcInv c (resync { z with count := n }).1 := zcInv_resetToInit h.prev_full c
  unfold waitStep
  split_ifs with _ hband _ hmax
  · exact hresync
  · exact hresync
  · exact hacc (by simpa using hband)
  · exact hresync
  · refine zcInv_counted h (fun hi => ?_) (fun _ => Nat.le_of_not_lt hmax) (fun hl => ?_)
    · rw [hi] at hs; cases hs
    · obtain ⟨-, -, hwait, -⟩ := measured_of_locked hl
      exact absurd hs (by simp [hwait])

/-! ### The locked states (45 R325, R326) -/

theorem bands_of_locked {c : ZcCfg} {z : ZcInst} (h : ZcInv c z) (hl : locked z.zcState = true) :
    inBand c z.posCount = true ∧ inBand c z.negCount = true := by
  obtain ⟨hpos, hneg, -, -⟩ := measured_of_locked hl
  exact ⟨by simpa [hpos] using h.pos_band, by simpa [hneg] using h.neg_band⟩

/-- All that a locked state can do with a tick (45 R325). -/
theorem lockedStep_cases (c : ZcCfg) (x : Crossing) (z : ZcInst) :
    lockedStep c x z = resync z ∨ lockedStep c x z = lockedRest c z ∨
    (inBand c z.count = true ∧ lockedStep c x z = lockedAccept c z) := by
  unfold lockedStep
  generalize (if posHalf z.zcState then x.crossNeg else x.crossPos) = hit
  split_ifs with _ _ _ _ hband
  · exact .inl rfl
  · exact .inr (.inl rfl)
  · exact .inl rfl
  · exact .inr (.inr ⟨by simpa using hband, rfl⟩)
  · exact .inl rfl
  · exact .inr (.inl rfl)

/-- The dwell moves on within the same half-cycle. -/
theorem zcInv_dwellTo {c : ZcCfg} {z : ZcInst} (h : ZcInv c z) {next : ZcState} {left : U16}
    (hl : locked z.zcState = true) (hn : locked next = true) (hhalf : posHalf next = posHalf z.zcState)
    (hleft : if confirming next then 1 ≤ left.toNat ∧ left.toNat ≤ c.zcConfirmTicks.toNat else left = 0) :
    ZcInv c { z with zcState := next, confirmLeft := left } := by
  obtain ⟨hpos, hneg⟩ := bands_of_locked h hl
  obtain ⟨hposm, hnegm, hwait, hinit⟩ := measured_of_locked hn
  have hexp : expectedLen { z with zcState := next, confirmLeft := left } = expectedLen z := by
    simp only [expectedLen, hhalf]
  exact { h with
    outputting_iff := h.outputting_iff.trans (hl.trans hn.symm)
    pos_band := by simp [hposm, hpos]
    neg_band := by simp [hnegm, hneg]
    confirm := hleft
    init_count := fun hi => absurd hi hinit
    wait_count := fun hw => absurd hw (by simp [hwait])
    lock_count := fun _ => by rw [hexp]; exact h.lock_count hl }

/-- A dwell that has not run out stays, one that has moves on (45 R326). -/
theorem confirm_dwell {c : ZcCfg} {left : U16} (hleft : left.toNat ≤ c.zcConfirmTicks.toNat) {stay next : ZcState}
    (hs : confirming stay = true) (hn : confirming next = false) :
    if confirming (if decU16 left = 0 then next else stay) then
      1 ≤ (decU16 left).toNat ∧ (decU16 left).toNat ≤ c.zcConfirmTicks.toNat else decU16 left = 0 := by
  by_cases hz : decU16 left = 0
  · simp [hz, hn]
  · have hne : (decU16 left).toNat ≠ 0 := fun e => hz (toNat_eq_zero_iff.1 e)
    simp only [hz, if_false, hs, if_true]
    rw [decU16_toNat] at *
    omega

theorem zcInv_dwell {c : ZcCfg} {z : ZcInst} (h : ZcInv c z) (hl : locked z.zcState = true) : ZcInv c (dwell z) := by
  have hconf := h.confirm
  unfold dwell
  split
  · next hs =>
    rw [hs] at hconf
    refine zcInv_dwellTo h hl ?_ ?_ (confirm_dwell hconf.2 rfl rfl) <;> split <;> simp [hs, locked, posHalf]
  · next hs =>
    rw [hs] at hconf
    refine zcInv_dwellTo h hl ?_ ?_ (confirm_dwell hconf.2 rfl rfl) <;> split <;> simp [hs, locked, posHalf]
  · exact h

section Locked

variable {c : ZcCfg} {z : ZcInst} (h : ZcInv c z) (hl : locked z.zcState = true) (n : U16)
include h hl

theorem zcInv_lockedRest : ZcInv c (lockedRest c { z with count := n }).1 := by
  unfold lockedRest
  split
  · exact zcInv_resetToInit h.prev_full c
  · next hmax =>
    obtain ⟨-, -, hwait, hinit⟩ := measured_of_locked hl
    exact zcInv_dwell (zcInv_counted h hinit (fun hw => absurd hw (by simp [hwait])) fun _ => Nat.le_of_not_lt hmax) hl

theorem zcInv_lockedAccept (hticks : 1 ≤ c.zcConfirmTicks.toNat) (hband : inBand c n = true) :
    ZcInv c (lockedAccept c { z with count := n }).1 := by
  obtain ⟨hpos, hneg⟩ := bands_of_locked h hl
  have hout := h.outputting_iff.trans hl
  unfold lockedAccept
  split
  · exact zcInv_accepted (next := .confirmPosNeg) h.prev_full nofun hout hband hneg ⟨hticks, le_rfl⟩
  · exact zcInv_accepted (next := .confirmNegPos) h.prev_full nofun hout hpos hband ⟨hticks, le_rfl⟩

theorem zcInv_lockedStep (hticks : 1 ≤ c.zcConfirmTicks.toNat) (x : Crossing) :
    ZcInv c (lockedStep c x { z with count := n }).1 := by
  rcases lockedStep_cases c x { z with count := n } with hx | hx | ⟨hband, hx⟩ <;> rw [hx]
  · exact zcInv_resetToInit (z := { z with count := n }) h.prev_full c
  · exact zcInv_lockedRest h hl n
  · exact zcInv_lockedAccept h hl n hticks hband

end Locked

/-! ### The protocol -/

theorem zcInv_protocol {c : ZcCfg} {z : ZcInst} (hticks : 1 ≤ c.zcConfirmTicks.toNat) (h : ZcInv c z)
    (x : Crossing) : ZcInv c (zcProtocol c x z).1 := by
  obtain ⟨st, count, p, q, out, left, _⟩ := z
  have hout := h.outputting_iff
  have hpos := h.pos_band
  have hneg := h.neg_band
  have hleft := h.confirm
  have hf := h.prev_full
  cases st with
  | init =>
    unfold zcProtocol
    dsimp only
    split
    · exact zcInv_accepted (next := .posWaitNeg1) hf nofun hout hpos hneg hleft
    · exact h
  | posWaitNeg1 =>
    exact zcInv_waitStep h rfl (fun hn => zcInv_accepted (next := .negWaitPos1) hf nofun hout hn hneg hleft) _ _
  | negWaitPos1 =>
    exact zcInv_waitStep h rfl (fun hn => zcInv_accepted (next := .posWaitNeg2) hf nofun hout hpos hn hleft) _ _
  | posWaitNeg2 =>
    exact zcInv_waitStep h rfl (fun hn => zcInv_accepted (next := .negWaitPos2) hf nofun hout hn hneg hleft) _ _
  | negWaitPos2 =>
    exact zcInv_waitStep h rfl
      (fun hn => zcInv_accepted (next := .confirmNegPos) hf nofun rfl hpos hn ⟨hticks, le_rfl⟩) _ _
  | confirmNegPos => exact zcInv_lockedStep h rfl _ hticks x
  | posDetectOc => exact zcInv_lockedStep h rfl _ hticks x
  | confirmPosNeg => exact zcInv_lockedStep h rfl _ hticks x
  | negDetectOc => exact zcInv_lockedStep h rfl _ hticks x

/-- The first average is taken once three samples are there (45 R312). -/
theorem zcInv_filterAndRun {c : ZcCfg} {z : ZcInst} (hticks : 1 ≤ c.zcConfirmTicks.toNat) (h : ZcInv c z)
    (ac : U16) : ZcInv c (zcFilterAndRun c ac z).1 := by
  have hpush := zcInv_pushSample h ac
  unfold zcFilterAndRun
  extract_lets y avg
  split
  · exact hpush
  · next hfill =>
    have hthree : y.histFill = 3 := BitVec.eq_of_toNat_eq (Nat.le_antisymm (Nat.le_of_lt_succ y.histFill.isLt)
      (Nat.le_of_not_lt hfill))
    split
    · exact { hpush with prev_full := fun _ => hthree }
    · have havg : ZcInv c { y with avgPrev := avg } := { hpush with }
      exact zcInv_protocol hticks havg _

theorem zcInv_zcTick {c : ZcCfg} {z : ZcInst} (hticks : 1 ≤ c.zcConfirmTicks.toNat) (h : ZcInv c z) (ac : U16) :
    ZcInv c (zcTick c ac z).1 :=
  zcInv_filterAndRun hticks (zcInv_stopCheck h) ac

/-! ### The machine -/

/-- Both groups meet their invariant. -/
def ZcInvs (s : State) : Prop := ∀ j, ZcInv (zcCfg s.cfg j) (getZc s j)

theorem valid_confirmTicks {c : Cfg} (h : c.valid = true) (j : ZcId) : 1 ≤ (zcCfg c j).zcConfirmTicks.toNat := by
  have hchg := meets_of_valid h .confirmChg
  have hinv := meets_of_valid h .confirmInv
  simp only [Cfg.meets, decide_eq_true_eq] at hchg hinv
  cases j
  · exact hchg
  · exact hinv

theorem zcInvs_congr {s t : State} (h : ZcInvs s) (hc : t.cfg = s.cfg) (hz : ∀ j, getZc t j = getZc s j) :
    ZcInvs t := fun j => by
  rw [hc, hz]
  exact h j

theorem zcInvs_tickZc {s : State} (hv : s.cfg.valid = true) (h : ZcInvs s) (j : ZcId) : ZcInvs (tickZc j s) := by
  intro k
  rw [(sameOutside_tickZc j s).cfg]
  by_cases hk : k = j
  · subst hk
    rw [getZc_tickZc_same]
    exact zcInv_zcTick (valid_confirmTicks hv k) (h k) _
  · rw [getZc_tickZc_other hk]
    exact h k

theorem zcInvs_engTick {s t : State} (h : ZcInvs s) (ht : engTick s = .next t) : ZcInvs t :=
  zcInvs_congr h (tickFrame_engTick ht).cfg (getZc_engTick ht)

theorem zcInvs_pwmTick {s t : State} (hv : s.cfg.valid = true) (h : ZcInvs s) (ht : pwmTick s = .next t) :
    ZcInvs t := by
  obtain ⟨-, u, hu, rfl⟩ | ⟨-, rfl⟩ | ⟨-, rfl⟩ := pwmTick_next ht
  · exact zcInvs_tickZc ((sameOutside_engTick hu).cfg ▸ hv) (zcInvs_engTick h hu) .inv
  · have hsafe : ZcInvs { s with safe.safeCyclesLeft := s.cfg.safeICycles } := fun j => by cases j <;> exact h _
    exact zcInvs_tickZc (by exact hv) hsafe .chg
  · exact h

theorem zcInvs_exec_control {i : Instr} {s t : State} (hi : i.format = .ctrl32) (h : ZcInvs s)
    (ht : exec i s = .next t) : ZcInvs t := by
  cases i, hi using ctrl32_cases with
  | ovlReset => cases ht; exact fun j => by cases j <;> exact h _
  | zcStopChg =>
    cases ht
    exact fun
      | .chg => { h .chg with }
      | .inv => h .inv
  | zcStopInv =>
    cases ht
    exact fun
      | .chg => h .chg
      | .inv => { h .inv with }
  | clrFbReversed => cases ht; exact fun j => by cases j <;> exact h _
  | clrOutShorted => cases ht; exact fun j => by cases j <;> exact h _

theorem zcInv_reset (c : ZcCfg) : ZcInv c ZcInst.reset := zcInv_resetToInit (z := ZcInst.reset) nofun c

theorem zcInvs_runEvent {e : Event} {s t : State} (hv : s.cfg.valid = true) (h : ZcInvs s)
    (ht : runEvent e s = .next t) : ZcInvs t := by
  have hports (p : Ports) : ZcInvs { s with ports := p } := fun j => by cases j <;> exact h _
  cases e with
  | pwmTick => exact zcInvs_pwmTick (by exact hv) (hports _) ht
  | engTick => exact zcInvs_engTick (hports _) ht
  | zcTick j => cases ht; exact zcInvs_tickZc (by exact hv) (hports _) j
  | sampleTick => cases ht; exact fun j => by cases j <;> simpa [getZc] using h _
  | zcTask => cases ht; exact fun j => by cases j <;> simpa [getZc] using h _
  | busWrite =>
    exact busWrite_induction (fun hs j => by cases j <;> exact hs _) (fun _ hi _ _ => zcInvs_exec_control hi) h ht
  | busRead => cases ht; exact fun j => by cases j <;> exact h _
  | hwReset => cases ht; exact fun j => by cases j <;> exact zcInv_reset _

end Sys2Proof.Proofs
end

section
/-! PROOF. Every step keeps the multiplier on its ramp (part of obligation O57). -/

namespace Sys2Proof.Proofs

open Sys2Proof Sys2Proof.Machine Sys2Proof.Laws Sys2Proof.Claims

/-! ### The ramps, one half-cycle on (40_engine_commands.md R160, R163) -/

theorem softStartMultiplier_succ (inc h : Nat) :
    min 65535 (softStartMultiplier inc h + inc) = softStartMultiplier inc (h + 1) := by
  rw [softStartMultiplier, softStartMultiplier, Nat.succ_mul (h + 1)]
  generalize (h + 1) * inc = m
  omega

theorem pingMultiplier_up {u h : Nat} (hu : h + 1 < u) (inc : Nat) :
    min 65535 (pingMultiplier u inc h + inc) = pingMultiplier u inc (h + 1) := by
  rw [pingMultiplier, pingMultiplier, if_pos (by omega), if_pos hu, Nat.succ_mul (h + 1)]
  generalize (h + 1) * inc = m
  omega

/-- The multiplier stays for one half-cycle at the top. -/
theorem pingMultiplier_top {u h : Nat} (hu : h + 1 = u) (inc : Nat) :
    pingMultiplier u inc h = pingMultiplier u inc (h + 1) := by
  rw [pingMultiplier, pingMultiplier, if_pos (by omega), if_neg (by omega), hu]
  simp

theorem pingMultiplier_down {u h : Nat} (hu : u < h + 1) (inc : Nat) :
    pingMultiplier u inc h - inc = pingMultiplier u inc (h + 1) := by
  rw [pingMultiplier, pingMultiplier, if_neg (by omega), if_neg (by omega), show h + 1 - u = (h - u).succ by omega,
    Nat.succ_mul, Nat.sub_sub]

/-! ### What the ramp invariant looks at -/

/-- Outside SOFT_START and PING there is no ramp to keep. -/
theorem rampInv_of_other {s : State} (hs : s.seq.engState ≠ .softStart) (hp : s.seq.engState ≠ .ping) : RampInv s :=
  ⟨fun h => absurd h hs, fun h => absurd h hp⟩

/-- The ramp invariant looks at the record, `eng_state` and the ramp, and not at `norm_halves`. -/
theorem rampInv_congr {s t : State} (h : RampInv s) (hc : t.cfg = s.cfg) (he : t.seq.engState = s.seq.engState)
    (hr : { t.ramp with normHalves := s.ramp.normHalves } = s.ramp) : RampInv t := by
  obtain ⟨hsoft, hping⟩ := h
  rw [← hc, ← he, ← hr] at *
  exact ⟨hsoft, hping⟩

theorem rampInv_sameEngine {s t : State} (h : RampInv s) (hs : SameEngine s t) : RampInv t :=
  rampInv_congr h hs.cfg (by rw [hs.seq]) (by rw [hs.ramp])

/-! ### The boundary -/

theorem rampInv_closeCycle {s : State} (h : RampInv s) (b : Bool) : RampInv (closeCycle b s) :=
  rampInv_congr h (closeCycle_cfg b s) (by rw [closeCycle_seq]) (by rw [closeCycle_ramp])

theorem rampInv_softStartBoundary {s : State} (h : RampInv s) (hi : EngInv s) (he : s.seq.engState = .softStart) :
    RampInv (softStartBoundary s) := by
  unfold softStartBoundary
  split
  · exact rampInv_of_other nofun nofun
  · have hlt := hi.soft_start_count he
    have hmax := s.cfg.softStartCycles.isLt
    refine ⟨fun _ => ?_, fun hp => (nomatch he.symm.trans hp)⟩
    show (rampUp s).toNat = softStartMultiplier s.ramp.rampInc.toNat (halvesDone (countHalf s.ramp))
    rw [rampUp_toNat, h.soft_start he, halvesDone_countHalf (by omega), softStartMultiplier_succ]

/-- A PING half-cycle that is not the last, with the multiplier of the next one. -/
theorem rampInv_pingHalf {s : State} (he : s.seq.engState = .ping) {m : U16}
    (hm : m.toNat = pingMultiplier s.cfg.pingRampHc.toNat s.ramp.rampInc.toNat (halvesDone (countHalf s.ramp))) :
    RampInv { s with ramp := { countHalf s.ramp with multiplier := m } } :=
  ⟨fun hs => (nomatch he.symm.trans hs), fun _ => hm⟩

theorem rampInv_pingBoundary {s : State} (h : RampInv s) (hi : EngInv s) (he : s.seq.engState = .ping) :
    RampInv (pingBoundary s) := by
  have hlt := hi.ping_count he
  have hmax := s.cfg.pingRampHc.isLt
  have hnext : halvesDone (countHalf s.ramp) = halvesDone s.ramp + 1 := halvesDone_countHalf (by omega)
  have hmul := h.ping he
  unfold pingBoundary
  dsimp only
  split_ifs with hend hup hdown
  · exact rampInv_of_other nofun nofun
  · refine rampInv_closeCycle (rampInv_pingHalf he ?_) false
    rw [rampUp_toNat, hmul, hnext, pingMultiplier_up (hnext ▸ hup)]
  · refine rampInv_closeCycle (rampInv_pingHalf he ?_) false
    rw [rampDown_toNat, hmul, hnext, pingMultiplier_down (hnext ▸ hdown)]
  · refine rampInv_closeCycle (rampInv_pingHalf he (m := s.ramp.multiplier) ?_) false
    rw [hmul, hnext, pingMultiplier_top (by omega)]

theorem rampInv_softStopBoundary {s : State} (he : s.seq.engState = .softStop) : RampInv (softStopBoundary s) := by
  unfold softStopBoundary
  split
  · exact rampInv_of_other nofun nofun
  · exact rampInv_closeCycle (rampInv_of_other (by simp [he]) (by simp [he])) false

theorem rampInv_boundary {s : State} (h : RampInv s) (ht : TickInv s) : RampInv (boundary s) := by
  have hi := engInv_boundaryCommon ht
  have hc : RampInv (boundaryCommon s) := rampInv_congr h rfl rfl rfl
  unfold boundary
  split
  · next he => exact rampInv_closeCycle (rampInv_softStartBoundary hc hi he) false
  · next he => exact rampInv_pingBoundary hc hi he
  · next he => exact rampInv_softStopBoundary he
  · exact rampInv_closeCycle hc true
  · exact rampInv_closeCycle hc false

theorem rampInv_advance {s : State} (h : RampInv s) (ht : TickInv s) : RampInv (advance s) := by
  unfold advance
  split
  · exact rampInv_boundary h ht
  · exact rampInv_congr h rfl rfl rfl

/-! ### The tick -/

/-- A failed self-test leaves the ramp for SOFT_STOP (44_clamp_saturation.md R296, R297). -/
theorem rampInv_peakTests {s : State} (h : RampInv s) (f : S17) : RampInv (peakTests f s) := by
  rcases peakTests_cases f s with ht | ⟨-, z, -, ht⟩ | ⟨-, ht⟩ | ⟨-, -, z, -, ht⟩ <;> rw [ht]
  case inl => exact h
  case inr.inl => exact rampInv_congr h rfl rfl rfl
  case inr.inr.inl => exact rampInv_of_other nofun nofun
  case inr.inr.inr => exact rampInv_of_other nofun nofun

theorem rampInv_activeTick {s : State} (hv : s.cfg.valid = true) (ha : s.seq.engState ≠ .idle) (hi : EngInv s)
    (h : RampInv s) (t : U32) : RampInv (activeTick t s) := by
  have htests := tickInv_peakTests (tickInv_shiftFeedback (tickInv_of_engInv hv ha hi)) (fbSample s)
  have hramp : RampInv (peakTests (fbSample s) (shiftFeedback s)) :=
    rampInv_peakTests (s := shiftFeedback s) (rampInv_congr h rfl rfl rfl) (fbSample s)
  unfold activeTick
  extract_lets p
  have hduty : p.1.cfg.minDuty.toNat ≤ p.2.toNat ∧ p.2.toNat ≤ p.1.cfg.flatTopDuty.toNat := by
    simpa [p] using tickDuty_range htests.valid _ _ _
  refine rampInv_advance ?_ (tickInv_accumulate (tickInv_driveStep (tickInv_tickDuty htests _ _ _) hduty))
  exact rampInv_congr hramp (by simp [p]) (by simp [p]) (by simp [p])

theorem rampInv_finishTick {s t : State} (hv : s.cfg.valid = true) (hi : EngInv s) (h : RampInv s)
    (ht : finishTick s = .next t) : RampInv t := by
  obtain ⟨-, rfl⟩ | ⟨ha, x, -, rfl⟩ := finishTick_next ht
  · exact rampInv_congr h rfl rfl rfl
  · exact rampInv_activeTick hv ha hi h x

/-! ### The commands -/

/-- A start stands at the foot of its ramp (40 R145). -/
theorem rampInv_applyStart {s : State} (hv : s.cfg.valid = true) (k : StartCmd) : RampInv (applyStart k s) := by
  obtain ⟨-, -, -, -, -, -, hping, -⟩ := valid_bounds hv
  cases k with
  | start => exact rampInv_of_other nofun nofun
  | softStart =>
    have hlt := (startRampInc s.cfg s.ports.vbattAvg .softStart).isLt
    refine ⟨fun _ => ?_, nofun⟩
    show (startRampInc s.cfg s.ports.vbattAvg .softStart).toNat =
      min 65535 ((0 + 1) * (startRampInc s.cfg s.ports.vbattAvg .softStart).toNat)
    omega
  | ping =>
    have hlt := (startRampInc s.cfg s.ports.vbattAvg .ping).isLt
    refine ⟨nofun, fun _ => ?_⟩
    show (startRampInc s.cfg s.ports.vbattAvg .ping).toNat =
      pingMultiplier s.cfg.pingRampHc.toNat (startRampInc s.cfg s.ports.vbattAvg .ping).toNat 0
    rw [pingMultiplier, if_pos (by omega)]
    omega

theorem rampInv_emptyLatch {s : State} (h : RampInv s) : RampInv (emptyLatch s) := rampInv_congr h rfl rfl rfl

theorem rampInv_acceptStart {s : State} (hv : s.cfg.valid = true) (h : RampInv s) (k : StartCmd) :
    RampInv (acceptStart k s) := by
  unfold acceptStart
  split
  · split
    · exact rampInv_emptyLatch (rampInv_applyStart hv k)
    · exact rampInv_emptyLatch h
  · split
    · exact rampInv_emptyLatch h
    · exact h
  · exact h

theorem rampInv_acceptSoftStop {s : State} (h : RampInv s) : RampInv (acceptSoftStop s) := by
  unfold acceptSoftStop
  split
  · exact rampInv_emptyLatch h
  · split
    · exact rampInv_of_other nofun nofun
    · exact h
  · exact h

theorem rampInv_clearTick {s t : State} (ht : clearTick s = .next t) : RampInv t := by
  cases ht
  exact rampInv_of_other nofun nofun

/-- What a command's step B keeps, when it is met in a state that is fit for a tick. -/
structure StepBKeeps (f : State → State) : Prop where
  cfg : ∀ u, (f u).cfg = u.cfg
  eng : ∀ u, u.cfg.valid = true → EngInv u → EngInv (f u)
  ramp : ∀ u, u.cfg.valid = true → RampInv u → RampInv (f u)

theorem stepBKeeps_id : StepBKeeps fun u => u := ⟨fun _ => rfl, fun _ _ => id, fun _ _ => id⟩

theorem stepBKeeps_acceptStart (k : StartCmd) : StepBKeeps (acceptStart k) where
  cfg := acceptStart_cfg k
  eng := fun _ hv h => engInv_acceptStart hv h k
  ramp := fun _ hv h => rampInv_acceptStart hv h k

theorem stepBKeeps_acceptSoftStop : StepBKeeps acceptSoftStop where
  cfg := acceptSoftStop_cfg
  eng := fun _ _ => engInv_acceptSoftStop
  ramp := fun _ _ => rampInv_acceptSoftStop

theorem rampInv_commandTick {f : State → State} (hf : StepBKeeps f) {s t : State} (hv : s.cfg.valid = true)
    (hi : EngInv s) (h : RampInv s) (ht : commandTick f s = .next t) : RampInv t := by
  obtain ⟨-, -, rfl⟩ | ht := commandTick_next ht
  · exact rampInv_of_other nofun nofun
  · have hb : RampInv (beginTick s) := rampInv_congr h rfl rfl rfl
    exact rampInv_finishTick (by rw [hf.cfg]; exact hv) (hf.eng (beginTick s) hv (engInv_beginTick hi))
      (hf.ramp (beginTick s) hv hb) ht

theorem rampInv_exec_command {i : Instr} {s t : State} (hv : s.cfg.valid = true) (hi : EngInv s) (h : RampInv s)
    (hfmt : i.format = .cmd8) (ht : exec i s = .next t) : RampInv t := by
  cases i, hfmt using cmd8_cases with
  | none => exact rampInv_commandTick stepBKeeps_id hv hi h ht
  | reset => exact rampInv_clearTick ht
  | softStart => exact rampInv_commandTick (stepBKeeps_acceptStart _) hv hi h ht
  | start => exact rampInv_commandTick (stepBKeeps_acceptStart _) hv hi h ht
  | ping => exact rampInv_commandTick (stepBKeeps_acceptStart _) hv hi h ht
  | softStop => exact rampInv_commandTick stepBKeeps_acceptSoftStop hv hi h ht
  | stop => exact rampInv_clearTick ht

theorem rampInv_engTick {s t : State} (hv : s.cfg.valid = true) (hi : EngInv s) (h : RampInv s)
    (ht : engTick s = .next t) : RampInv t := by
  rcases fetchCommand_state s with hs | hs <;> rw [engTick, hs] at ht
  · exact rampInv_exec_command hv hi h (fetchCommand_format s) ht
  · exact rampInv_exec_command (s := emptyLatch s) hv (engInv_emptyLatch hi) (rampInv_emptyLatch h)
      (fetchCommand_format s) ht

/-! ### The events -/

theorem rampInv_pwmTick {s t : State} (hv : s.cfg.valid = true) (hi : EngInv s) (h : RampInv s)
    (ht : pwmTick s = .next t) : RampInv t := by
  obtain ⟨-, u, hu, rfl⟩ | ⟨-, rfl⟩ | ⟨-, rfl⟩ := pwmTick_next ht
  · exact rampInv_sameEngine (rampInv_engTick hv hi h hu) (sameEngine_tickZc .inv u)
  · exact rampInv_congr h rfl rfl rfl
  · exact h

theorem rampInv_runEvent {e : Event} {s t : State} (hv : s.cfg.valid = true) (hi : EngInv s) (h : RampInv s)
    (ht : runEvent e s = .next t) : RampInv t := by
  have hports (p : Ports) : EngInv { s with ports := p } ∧ RampInv { s with ports := p } :=
    ⟨engInv_of_sameEngine hi (by constructor <;> rfl) (.inl rfl) id, rampInv_congr h rfl rfl rfl⟩
  cases e with
  | pwmTick => exact rampInv_pwmTick (by exact hv) (hports _).1 (hports _).2 ht
  | engTick => exact rampInv_engTick (by exact hv) (hports _).1 (hports _).2 ht
  | hwReset => cases ht; exact rampInv_of_other nofun nofun
  | zcTick => exact rampInv_sameEngine h (writerFrame_runEvent ht nofun nofun nofun).engine
  | sampleTick => exact rampInv_sameEngine h (writerFrame_runEvent ht nofun nofun nofun).engine
  | zcTask => exact rampInv_sameEngine h (writerFrame_runEvent ht nofun nofun nofun).engine
  | busWrite => exact rampInv_sameEngine h (writerFrame_runEvent ht nofun nofun nofun).engine
  | busRead => exact rampInv_sameEngine h (writerFrame_runEvent ht nofun nofun nofun).engine

end Sys2Proof.Proofs
end

section
/-! PROOF. From every state that meets the invariant the next step completes and meets it again (obligation
O57): no event stops the machine, and the four groups keep their invariants. -/

namespace Sys2Proof.Proofs

open Sys2Proof Sys2Proof.Machine Sys2Proof.Laws Sys2Proof.Claims

/-! ### No event stops the machine -/

/-- The index of an active tick lies in the table (20_memory.md R71). -/
theorem finishTick_completes {s : State} (hv : s.cfg.valid = true) (h : EngInv s) : ∃ t, finishTick s = .next t := by
  by_cases hi : s.seq.engState = .idle
  · exact ⟨_, by rw [finishTick, if_pos hi]⟩
  · exact ⟨_, finishTick_active hv h.idx_lt hi⟩

theorem commandTick_completes {f : State → State} (hf : StepBKeeps f) {s : State} (hv : s.cfg.valid = true)
    (h : EngInv s) : ∃ t, commandTick f s = .next t := by
  unfold commandTick
  split
  · exact ⟨_, rfl⟩
  · exact finishTick_completes (by rw [hf.cfg]; exact hv) (hf.eng (beginTick s) hv (engInv_beginTick h))

theorem exec_command_completes {i : Instr} {s : State} (hfmt : i.format = .cmd8) (hv : s.cfg.valid = true)
    (h : EngInv s) : ∃ t, exec i s = .next t := by
  cases i, hfmt using cmd8_cases with
  | none => exact commandTick_completes stepBKeeps_id hv h
  | reset => exact ⟨_, rfl⟩
  | softStart => exact commandTick_completes (stepBKeeps_acceptStart _) hv h
  | start => exact commandTick_completes (stepBKeeps_acceptStart _) hv h
  | ping => exact commandTick_completes (stepBKeeps_acceptStart _) hv h
  | softStop => exact commandTick_completes stepBKeeps_acceptSoftStop hv h
  | stop => exact ⟨_, rfl⟩

theorem engTick_completes {s : State} (hv : s.cfg.valid = true) (h : EngInv s) : ∃ t, engTick s = .next t := by
  rcases fetchCommand_state s with hs | hs <;> rw [engTick, hs]
  · exact exec_command_completes (fetchCommand_format s) hv h
  · exact exec_command_completes (fetchCommand_format s) hv (engInv_emptyLatch h)

theorem pwmTick_completes {s : State} (hv : s.cfg.valid = true) (h : EngInv s) : ∃ t, pwmTick s = .next t := by
  unfold pwmTick
  split
  · obtain ⟨u, hu⟩ := engTick_completes hv h
    exact ⟨tickZc .inv u, by rw [hu]; rfl⟩
  · exact ⟨_, rfl⟩
  · exact ⟨_, rfl⟩
  · exact ⟨_, rfl⟩

theorem exec_control_completes {i : Instr} (hi : i.format = .ctrl32) (s : State) : ∃ t, exec i s = .next t := by
  cases i, hi using ctrl32_cases <;> exact ⟨_, rfl⟩

theorem runControls_completes {is : List Instr} (hi : ∀ i ∈ is, i.format = .ctrl32) (s : State) :
    ∃ t, runControls is s = .next t := by
  induction is generalizing s with
  | nil => exact ⟨s, rfl⟩
  | cons i is ih =>
    obtain ⟨u, hu⟩ := exec_control_completes (hi i List.mem_cons_self) s
    rw [runControls, hu]
    exact ih (fun k hk => hi k (List.mem_cons_of_mem _ hk)) u

theorem busWrite_completes (a n : Nat) (v : U32) (s : State) : ∃ t, busWrite a n v s = .next t := by
  unfold busWrite
  split
  · unfold regWrite
    split
    · exact ⟨_, rfl⟩
    · exact runControls_completes (fun _ => decodeCtrl_format) s
  · exact ⟨s, rfl⟩

theorem runEvent_completes (e : Event) {s : State} (hv : s.cfg.valid = true) (h : EngInv s) :
    ∃ t, runEvent e s = .next t := by
  have hports (p : Ports) : EngInv { s with ports := p } :=
    engInv_of_sameEngine h (by constructor <;> rfl) (.inl rfl) id
  cases e with
  | pwmTick => exact pwmTick_completes (by exact hv) (hports _)
  | engTick => exact engTick_completes (by exact hv) (hports _)
  | busWrite => exact busWrite_completes _ _ _ s
  | zcTick => exact ⟨_, rfl⟩
  | sampleTick => exact ⟨_, rfl⟩
  | zcTask => exact ⟨_, rfl⟩
  | busRead => exact ⟨_, rfl⟩
  | hwReset => exact ⟨_, rfl⟩

theorem step_completes {s : State} (hv : s.cfg.valid = true) (h : EngInv s) : ∃ t, step s = .next t := by
  cases he : s.events with
  | nil => exact ⟨s, step_idle hv he⟩
  | cons e rest =>
    rw [step_event hv he]
    exact runEvent_completes e hv (engInv_of_sameEngine h (by constructor <;> rfl) (.inl rfl) id)

/-! ### The invariant -/

theorem zcInvs_of_inv {s : State} (h : Inv s) : ZcInvs s
  | .chg => h.chg
  | .inv => h.inv

theorem inv_beginEvent {s : State} (h : Inv s) (rest : List Event) : Inv (beginEvent rest s) where
  cfg_valid := h.cfg_valid
  eng := engInv_of_sameEngine h.eng (by constructor <;> rfl) (.inl rfl) id
  ramp := rampInv_congr h.ramp rfl rfl rfl
  ovl := ovlInv_congr h.ovl rfl rfl
  chg := h.chg
  inv := h.inv

theorem inv_runEvent {e : Event} {s t : State} (h : Inv s) (ht : runEvent e s = .next t) : Inv t :=
  have hv := h.cfg_valid
  have hzc := zcInvs_runEvent hv (zcInvs_of_inv h) ht
  { cfg_valid := by rw [(sameOutside_runEvent ht).cfg]; exact hv
    eng := engInv_runEvent h.eng hv ht
    ramp := rampInv_runEvent hv h.eng h.ramp ht
    ovl := ovlInv_runEvent hv h.ovl ht
    chg := hzc .chg
    inv := hzc .inv }

theorem inv_step {s t : State} (h : Inv s) (ht : step s = .next t) : Inv t := by
  obtain ⟨-, ⟨-, rfl⟩ | ⟨e, rest, -, hrun⟩⟩ := step_next ht
  · exact h
  · exact inv_runEvent (inv_beginEvent h rest) hrun

/-- Settles O57: the index lies in the table, so the step completes; what it answers meets the invariant of
each group. -/
theorem everyStepCompletes : Obligations.EveryStepCompletes := by
  intro s h
  obtain ⟨t, ht⟩ := step_completes h.cfg_valid h.eng
  exact ⟨t, ht, inv_step h ht, events_of_step ht⟩

end Sys2Proof.Proofs
end

section
/-! PROOF. The decoder and the encoder: the command codes, the control operations of a word, and the step that
runs them (obligations O5, O6, O7, O8, O10). -/

namespace Sys2Proof.Proofs

open Sys2Proof Sys2Proof.Machine Sys2Proof.Laws Sys2Proof.Claims

/-! ### The rows of the opcode table, by instruction -/

/-- The row of a command: the whole byte is its code (30_encoding.md R101). -/
def cmdRow (i : Instr) : Row := ⟨i, cmdOffset, 0xFF, encode i⟩

/-- The row of a control write: its word is its one decoded bit (30_encoding.md R118). -/
def ctrlRow (i : Instr) : Row := ⟨i, carrier i, encode i, encode i⟩

/-- The five control writes, in the order of the table (30_encoding.md R118). -/
def controlWrites : List Instr := [.ovlReset, .zcStopChg, .zcStopInv, .clrFbReversed, .clrOutShorted]

theorem cmdRows_eq_map : cmdRows = commands.map cmdRow := rfl

theorem ctrlRows_eq_map : ctrlRows = controlWrites.map ctrlRow := rfl

theorem mem_commands (i : Instr) : i ∈ commands ↔ i.format = .cmd8 := by cases i <;> decide

theorem mem_controlWrites (i : Instr) : i ∈ controlWrites ↔ i.format = .ctrl32 := by cases i <;> decide

/-! ### The command byte -/

/-- The command byte of an instruction (30_encoding.md R101). -/
def commandByte (i : Instr) : U8 := (encode i).setWidth 8

/-- A byte matches the row of a command exactly when it is that command's byte. -/
theorem cmdRow_hit {i : Instr} (hi : i.format = .cmd8) (b : U8) :
    (cmdRow i).hit cmdOffset (b.setWidth 32) = true ↔ commandByte i = b := by
  constructor
  · intro h
    have hword : b.setWidth 32 &&& 0xFF = encode i := by simpa [Row.hit, cmdRow] using h
    rw [commandByte, ← hword, BitVec.setWidth_and, BitVec.setWidth_setWidth_of_le b (by decide), BitVec.setWidth_eq]
    exact BitVec.and_allOnes
  · rintro rfl
    cases i, hi using cmd8_cases <;> decide

/-- The command decoder answers the one command whose byte it is given (30_encoding.md R101). -/
theorem decodeCmd_eq_ok_iff (b : U8) (i : Instr) :
    decodeCmd b = .ok i ↔ i.format = .cmd8 ∧ commandByte i = b := by
  constructor
  · intro h
    unfold decodeCmd at h
    split at h
    · next r hr =>
      cases h
      have hmem := List.mem_of_find?_eq_some hr
      rw [cmdRows_eq_map] at hmem
      obtain ⟨k, hk, rfl⟩ := List.mem_map.1 hmem
      have hfmt := (mem_commands k).1 hk
      exact ⟨hfmt, (cmdRow_hit hfmt b).1 (List.find?_eq_some_iff_append.1 hr).1⟩
    · cases h
  · rintro ⟨hi, rfl⟩
    cases i, hi using cmd8_cases <;> decide

theorem commandByte_getElem : ∀ n : Fin 7, (commandByte commands[n]).toNat = n := by decide

/-- The bytes of the seven commands are those below 7 (30_encoding.md R101). -/
theorem exists_commandByte_iff (b : U8) : (∃ i, i.format = .cmd8 ∧ commandByte i = b) ↔ b.toNat < 7 := by
  constructor
  · rintro ⟨i, hi, rfl⟩
    cases i, hi using cmd8_cases <;> decide
  · intro hb
    exact ⟨commands[b.toNat], (mem_commands _).1 (List.getElem_mem _),
      BitVec.eq_of_toNat_eq (commandByte_getElem ⟨b.toNat, hb⟩)⟩

/-- Settles O8: the decoder answers an error where no command has the byte. -/
theorem codesFromSevenAreReserved : Obligations.CodesFromSevenAreReserved := by
  intro b
  rw [← Nat.not_lt, ← exists_commandByte_iff]
  simp only [← decodeCmd_eq_ok_iff]
  cases decodeCmd b <;> simp

/-! ### The operations of a control word -/

/-- The control operation `i` stands in the word `w` written to `offset`: it is carried there and its bit is set
(30_encoding.md R118). -/
def carriedBy (offset : Nat) (w : U32) (i : Instr) : Bool := (ctrlRow i).hit offset w

theorem carriedBy_iff (offset : Nat) (w : U32) (i : Instr) :
    carriedBy offset w i = true ↔ offset = carrier i ∧ w &&& encode i = encode i := by
  simp only [carriedBy, Row.hit, ctrlRow, Bool.and_eq_true, beq_iff_eq, eq_comm (a := offset)]

/-- The operations of a word are the control writes that stand in it. -/
theorem decodeCtrl_eq_filter (offset : Nat) (w : U32) :
    decodeCtrl offset w = controlWrites.filter (carriedBy offset w) := by
  rw [decodeCtrl, ctrlRows_eq_map, List.filter_map, List.map_map]
  exact List.map_id _

theorem mem_decodeCtrl (offset : Nat) (w : U32) (i : Instr) :
    i ∈ decodeCtrl offset w ↔ i.format = .ctrl32 ∧ offset = carrier i ∧ w &&& encode i = encode i := by
  rw [decodeCtrl_eq_filter, List.mem_filter, mem_controlWrites, carriedBy_iff]

/-- Settles O7: the operations are a selection from the control writes, which are five different ones. -/
theorem controlWordCarriesItsSetBits : Obligations.ControlWordCarriesItsSetBits := by
  intro offset w
  have hnodup : controlWrites.Nodup := by decide
  refine ⟨?_, mem_decodeCtrl offset w⟩
  rw [decodeCtrl_eq_filter]
  exact hnodup.filter _

/-! ### A whole host write -/

/-- The control registers (30_encoding.md R118). -/
def controlOffsets : List Nat := [statusOffset, ovlCtrlOffset, zcCtrlOffset]

/-- All that a word written to an offset can decode to: the command of its low byte at CMD, or the operations,
at least one, of a control register. -/
theorem decodeWrite_eq_ok_iff (offset : Nat) (w : U32) (is : List Instr) : decodeWrite offset w = .ok is ↔
    (offset = cmdOffset ∧ ∃ i, decodeCmd (w.setWidth 8) = .ok i ∧ is = [i]) ∨
    (offset ∈ controlOffsets ∧ decodeCtrl offset w = is ∧ is ≠ []) := by
  have hother : cmdOffset ∉ controlOffsets := by decide
  have htest : (offset == statusOffset || offset == ovlCtrlOffset || offset == zcCtrlOffset) = true ↔
      offset ∈ controlOffsets := by simp [controlOffsets, or_assoc]
  unfold decodeWrite
  simp only [htest, beq_iff_eq]
  split_ifs with hcmd hctrl
  · cases decodeCmd (w.setWidth 8) <;> simp [hcmd, hother, eq_comm]
  · cases decodeCtrl offset w <;> simp +contextual [hcmd, hctrl, eq_comm]
  · simp [hcmd, hctrl]

/-- A command's word is written to CMD (30_encoding.md R101). -/
theorem carrier_of_cmd8 {i : Instr} (hi : i.format = .cmd8) : carrier i = cmdOffset := by
  cases i, hi using cmd8_cases <;> rfl

/-- A control write's word is written to a control register (30_encoding.md R118). -/
theorem carrier_of_ctrl32 {i : Instr} (hi : i.format = .ctrl32) : carrier i ∈ controlOffsets := by
  cases i, hi using ctrl32_cases <;> decide

/-- A command's word has no bit above its byte. -/
theorem zero_append_commandByte {i : Instr} (hi : i.format = .cmd8) :
    (0 : BitVec 24) ++ commandByte i = encode i := by
  cases i, hi using cmd8_cases <;> rfl

/-- A command's byte decodes to it, whatever the upper bits of the word (30_encoding.md R102). -/
theorem decodeWrite_append_commandByte {i : Instr} (hi : i.format = .cmd8) (upper : BitVec 24) :
    decodeWrite (carrier i) (upper ++ commandByte i) = .ok [i] :=
  (decodeWrite_eq_ok_iff _ _ _).2 (.inl ⟨carrier_of_cmd8 hi, i,
    (decodeCmd_eq_ok_iff _ _).2 ⟨hi, BitVec.setWidth_append_eq_right.symm⟩, rfl⟩)

/-- A control write's own word carries it alone. -/
theorem decodeCtrl_encode {i : Instr} (hi : i.format = .ctrl32) : decodeCtrl (carrier i) (encode i) = [i] := by
  cases i, hi using ctrl32_cases <;> decide

theorem decodeWrite_encode (i : Instr) : decodeWrite (carrier i) (encode i) = .ok [i] := by
  cases hi : i.format with
  | cmd8 =>
    rw [← zero_append_commandByte hi]
    exact decodeWrite_append_commandByte hi 0
  | ctrl32 =>
    exact (decodeWrite_eq_ok_iff _ _ _).2
      (.inr ⟨carrier_of_ctrl32 hi, decodeCtrl_encode hi, List.cons_ne_nil _ _⟩)

/-- Settles O6: a command is found by its byte, a control operation by its bit, and the bytes of a word are the
word. -/
theorem decodeUndoesEncode : Obligations.DecodeUndoesEncode := by
  refine ⟨fun i hi upper => decodeWrite_append_commandByte hi upper, fun i hi w => ?_, decodeWrite_encode,
    fun offset w => ?_⟩
  · have hbit : (w ||| encode i) &&& encode i = encode i := by
      ext k hk
      simpa using Or.inr
    exact (mem_decodeCtrl _ _ _).2 ⟨hi, rfl, hbit⟩
  · rw [decodeBytes, wordOfBytes_bytesOfWord]

/-- Settles O5: five of the six are an instruction's own byte or word; the word with both stops is the model's
choice of order (30_encoding.md R118, notes/assumptions/19.md). -/
theorem tableWordsDecode : Obligations.TableWordsDecode :=
  ⟨(decodeCmd_eq_ok_iff _ .softStart).2 ⟨rfl, rfl⟩, (decodeCmd_eq_ok_iff _ .stop).2 ⟨rfl, rfl⟩,
    decodeWrite_encode .ovlReset, decodeWrite_encode .zcStopInv,
    (decodeWrite_eq_ok_iff _ _ _).2 (.inr ⟨by decide, decodeCtrl_zcCtrl _, List.cons_ne_nil _ _⟩),
    decodeWrite_encode .clrOutShorted⟩

/-! ### The step that writes a control word -/

theorem controlOffset_aligned {offset : Nat} (h : offset ∈ controlOffsets) :
    offset ≠ cmdOffset ∧ offset % 4 = 0 ∧ offset ≤ 0x7FFFC :=
  (by decide : ∀ o ∈ controlOffsets, o ≠ cmdOffset ∧ o % 4 = 0 ∧ o ≤ 0x7FFFC) offset h

/-- The write of a control word runs the operations that it decodes to. -/
theorem step_controlWrite {s : State} (hv : s.cfg.valid = true) {offset : Nat} {v : U32} {is : List Instr}
    (ho : offset ∈ controlOffsets) (hd : decodeCtrl offset v = is) (rest : List Event) :
    step (withEvents s (.busWrite (s.cfg.regBase + offset) 4 v :: rest)) = runControls is (beginEvent rest s) := by
  obtain ⟨hcmd, halign, hend⟩ := controlOffset_aligned ho
  rw [step_writeAt hv halign hend, regWrite, if_neg hcmd, hd]

theorem andThen_next (o : Out) : andThen o .next = o := by cases o <;> rfl

theorem runControls_singleton (i : Instr) : runControls [i] = exec i := funext fun s => andThen_next (exec i s)

/-- Settles O10: a word with one control operation is for a control register, and so is one with two; CMD takes
one command. -/
theorem stepRunsTheControlWord : Obligations.StepRunsTheControlWord := by
  intro s offset v rest hv
  refine ⟨fun i hd hi => ?_, fun i k hd => ?_⟩
  · obtain ⟨-, j, hj, his⟩ | ⟨ho, hctrl, -⟩ := (decodeWrite_eq_ok_iff _ _ _).1 hd
    · obtain ⟨rfl⟩ := List.singleton_inj.1 his
      cases hi.symm.trans ((decodeCmd_eq_ok_iff _ _).1 hj).1
    · rw [step_controlWrite hv ho hctrl, runControls_singleton]
  · obtain ⟨-, j, -, his⟩ | ⟨ho, hctrl, -⟩ := (decodeWrite_eq_ok_iff _ _ _).1 hd
    · cases his
    · rw [step_controlWrite hv ho hctrl, runControls, runControls_singleton]

end Sys2Proof.Proofs
end

section
/-! PROOF. What reads of the packed registers and of the indexed windows return (obligations O16, O17). -/

namespace Sys2Proof.Proofs

open Sys2Proof Sys2Proof.Machine Sys2Proof.Laws Sys2Proof.Claims
open BitVec (extractLsb'_append_eq_of_le extractLsb'_append_eq_of_add_le extractLsb'_eq_self)

/-! ### Named registers -/

/-- No two named registers share an offset (20_memory.md R74). -/
theorem regRead_regOffset (s : State) (r : Reg) : regRead s (regOffset r) = regView s r := by
  cases r <;> rfl

theorem regOffset_mod_four (r : Reg) : regOffset r % 4 = 0 := by cases r <;> rfl

/-- A read of a named register returns its view of the state. -/
theorem readsWord_reg {s : State} (hv : s.cfg.valid = true) (r : Reg) :
    readsWord s (regOffset r) (regView s r) := by
  have hend : regOffset r ≤ 0x7FFFC := (regOffset_le r).trans (by decide)
  rw [← regRead_regOffset]
  exact readsWord_regRead hv (regOffset_mod_four r) hend

/-- The registers of each zero-crossing unit show that unit (30_encoding.md R115). -/
theorem readsWord_zcReg {s : State} (hv : s.cfg.valid = true) {chg inv : Reg} {word : ZcInst → U32}
    (hchg : regView s chg = word s.zcChg) (hinv : regView s inv = word s.zcInv) (j : ZcId) :
    readsWord s (if j = .chg then regOffset chg else regOffset inv) (word (getZc s j)) := by
  cases j with
  | chg => rw [if_pos rfl, getZc, ← hchg]; exact readsWord_reg hv chg
  | inv => rw [if_neg (by decide), getZc, ← hinv]; exact readsWord_reg hv inv

/-! ### Codes (30_encoding.md R104 to R107) -/

theorem engCode_mem (e : EngState) : (e, engCode e) ∈ engCodes := by cases e <;> decide

theorem phaseCode_mem (p : Phase) : (p, phaseCode p) ∈ phaseCodes := by cases p <;> decide

theorem ovlCode_mem (o : OvlState) : (o, ovlCode o) ∈ ovlCodes := by cases o <;> decide

theorem zcCode_mem (z : ZcState) : (z, zcCode z) ∈ zcCodes := by cases z <;> decide

/-! ### The fields of the packed words (30_encoding.md R110 to R116)

A word is its fields appended, the highest first. Each field is found by dropping those below it and then those
above it; the side conditions compare bit positions. -/

/-- `w` packs `lo` below `hi`, as the registers of two u16 fields do. -/
def Packs (w : U32) (lo hi : U16) : Prop := w.extractLsb' 0 16 = lo ∧ w.extractLsb' 16 16 = hi

theorem packs_append (hi lo : U16) : Packs (hi ++ lo) lo hi :=
  ⟨BitVec.extractLsb'_append_eq_right, BitVec.extractLsb'_append_eq_left⟩

theorem readsWord_packed {s : State} (hv : s.cfg.valid = true) (r : Reg) {lo hi : U16}
    (hr : regView s r = hi ++ lo) : ∃ w, readsWord s (regOffset r) w ∧ Packs w lo hi :=
  ⟨_, readsWord_reg hv r, hr ▸ packs_append hi lo⟩

theorem getLsbD_append_of_lt {v w i : Nat} {x : BitVec v} {y : BitVec w} (h : i < w) :
    (x ++ y).getLsbD i = y.getLsbD i := by
  rw [BitVec.getLsbD_append, if_pos h]

theorem getLsbD_append_of_le {v w i : Nat} {x : BitVec v} {y : BitVec w} (h : w ≤ i) :
    (x ++ y).getLsbD i = x.getLsbD (i - w) := by
  rw [BitVec.getLsbD_append, if_neg (by omega)]

theorem bit_getLsbD_zero (b : Bool) : (bit b).getLsbD 0 = b := by cases b <;> rfl

/-- ENG_STATE (30 R111). -/
theorem engStateWord_fields (s : State) : let w := regView s .engState
    (s.seq.engState, w.extractLsb' 0 3) ∈ engCodes ∧ (s.seq.phase, w.extractLsb' 3 1) ∈ phaseCodes ∧
    w.getLsbD 4 = s.flatTop.active ∧ w.getLsbD 5 = s.safe.kiSafeSel ∧
    w.extractLsb' 6 2 = s.ramp.normHalves ∧ w.extractLsb' 8 8 = 0 ∧ w.extractLsb' 16 16 = s.seq.idx := by
  simp (disch := decide) only [regView, extractLsb'_append_eq_of_le, extractLsb'_append_eq_of_add_le,
    extractLsb'_eq_self, getLsbD_append_of_lt, getLsbD_append_of_le, bit_getLsbD_zero, Nat.reduceSub,
    engCode_mem, phaseCode_mem, and_self]

/-- OVL_STATE (30 R113). -/
theorem ovlStateWord_fields (s : State) : let w := regView s .ovlState
    (s.ovl.state, w.extractLsb' 0 2) ∈ ovlCodes ∧ w.getLsbD 2 = s.ovl.vdsThresholdActive ∧
    w.getLsbD 3 = s.ovl.event ∧ w.extractLsb' 4 12 = 0 ∧
    w.extractLsb' 16 16 = s.ovl.skipNextPulseCount := by
  simp (disch := decide) only [regView, extractLsb'_append_eq_of_le, extractLsb'_append_eq_of_add_le,
    extractLsb'_eq_self, getLsbD_append_of_lt, getLsbD_append_of_le, bit_getLsbD_zero, Nat.reduceSub,
    ovlCode_mem, and_self]

/-- OVERRIDE (30 R114): four bits, and nothing above them. -/
theorem overrideWord_lt (s : State) : (regView s .override).toNat < 16 :=
  Nat.lt_pow_two_of_testBit (n := 4) _ fun i hi => by
    simp (disch := omega) only [BitVec.testBit_toNat, regView, getLsbD_append_of_le]
    exact BitVec.getLsbD_zero

theorem overrideWord_bits (s : State) : let w := regView s .override
    w.getLsbD 0 = s.drive.ovrEnA ∧ w.getLsbD 1 = s.drive.ovrLvlA ∧
    w.getLsbD 2 = s.drive.ovrEnB ∧ w.getLsbD 3 = s.drive.ovrLvlB := by
  simp (disch := decide) only [regView, getLsbD_append_of_lt, getLsbD_append_of_le, bit_getLsbD_zero,
    Nat.reduceSub, and_self]

/-- ZC_STATE_j (30 R115). -/
theorem zcStateWord_fields (z : ZcInst) : let w := zcStateWord z
    (z.zcState, w.extractLsb' 0 4) ∈ zcCodes ∧ w.getLsbD 4 = z.outputting ∧ w.getLsbD 5 = z.stopReq ∧
    w.extractLsb' 6 10 = 0 ∧ w.extractLsb' 16 16 = z.count := by
  simp (disch := decide) only [zcStateWord, extractLsb'_append_eq_of_le, extractLsb'_append_eq_of_add_le,
    extractLsb'_eq_self, getLsbD_append_of_lt, getLsbD_append_of_le, bit_getLsbD_zero, Nat.reduceSub,
    zcCode_mem, and_self]

/-- ZC_FILT2_j (30 R115). -/
theorem zcFilt2Word_fields (z : ZcInst) : let w := zcFilt2Word z
    w.extractLsb' 0 2 = z.histFill ∧ w.getLsbD 2 = z.havePrev ∧ w.extractLsb' 3 13 = 0 ∧
    w.extractLsb' 16 16 = z.confirmLeft := by
  simp (disch := decide) only [zcFilt2Word, extractLsb'_append_eq_of_le, extractLsb'_append_eq_of_add_le,
    extractLsb'_eq_self, getLsbD_append_of_lt, getLsbD_append_of_le, bit_getLsbD_zero, Nat.reduceSub, and_self]

/-- SAT_REDUCE (30 R116). -/
theorem satReduceWord_fields (s : State) : let w := regView s .satReduce
    w.extractLsb' 0 16 = s.satDet.reduceAmt ∧ w.getLsbD 16 = s.satDet.reduceActive ∧
    (s.satDet.reducePhase, w.extractLsb' 17 1) ∈ phaseCodes ∧ w.extractLsb' 18 14 = 0 := by
  simp (disch := decide) only [regView, extractLsb'_append_eq_of_le, extractLsb'_append_eq_of_add_le,
    extractLsb'_eq_self, getLsbD_append_of_lt, getLsbD_append_of_le, bit_getLsbD_zero, Nat.reduceSub,
    phaseCode_mem, and_self]

/-- Settles O16: each register is read at its offset, and its word has the fields of its layout. -/
theorem registerFields : Obligations.RegisterFields := by
  intro s hv
  have hread := readsWord_reg hv
  exact ⟨
    ⟨_, hread .cmd, BitVec.toNat_setWidth_of_le (by decide)⟩,
    ⟨_, hread .engState, engStateWord_fields s⟩,
    readsWord_packed hv .ramp rfl,
    hread .integralSum, hread .prevError, hread .savedIntegral,
    readsWord_packed hv .flatTop rfl,
    readsWord_packed hv .duty rfl,
    readsWord_packed hv .drive rfl,
    ⟨_, hread .ovlState, ovlStateWord_fields s⟩,
    readsWord_packed hv .ovlCount rfl,
    ⟨_, hread .ovlRetry, BitVec.toNat_setWidth_of_le (by decide)⟩,
    ⟨_, hread .override, overrideWord_lt s, overrideWord_bits s⟩,
    fun j => ⟨_, readsWord_zcReg hv (chg := .zcStateChg) (inv := .zcStateInv) rfl rfl j, zcStateWord_fields _⟩,
    fun j => ⟨_, readsWord_zcReg hv (chg := .zcLenChg) (inv := .zcLenInv) (word := zcLenWord) rfl rfl j,
      packs_append _ _⟩,
    fun j => ⟨_, readsWord_zcReg hv (chg := .zcFilt0Chg) (inv := .zcFilt0Inv) (word := zcFilt0Word) rfl rfl j,
      packs_append _ _⟩,
    fun j => ⟨_, readsWord_zcReg hv (chg := .zcFilt1Chg) (inv := .zcFilt1Inv) (word := zcFilt1Word) rfl rfl j,
      packs_append _ _⟩,
    fun j => ⟨_, readsWord_zcReg hv (chg := .zcFilt2Chg) (inv := .zcFilt2Inv) rfl rfl j, zcFilt2Word_fields _⟩,
    hread .rebalAcc, hread .rebalPos, hread .rebalNeg, hread .satAcc, hread .satPos, hread .satNeg,
    ⟨_, hread .satReduce, satReduceWord_fields s⟩,
    readsWord_packed hv .safe rfl⟩

/-! ### The indexed windows (30_encoding.md R117) -/

/-- An entry of the delay line reads sign-extended, and the rest of its window 0. -/
theorem regRead_delayLine (s : State) {k : Nat} (hk : k < 256) :
    regRead s (0x400 + 4 * k) = (s.fbDly.getD k 0).signExtend 32 := by
  have hidx : (0x400 + 4 * k - 0x400) / 4 = k := by omega
  rw [regRead_beyond (by omega), windowRead, if_pos (by omega), hidx, List.getD_eq_getElem?_getD]
  cases s.fbDly[k]? <;> rfl

/-- An entry of the table reads as it is, and the rest of its window 0. -/
theorem regRead_table (s : State) {i : Nat} (hi : i < 65536) :
    regRead s (0x40000 + 4 * i) = s.cfg.table.getD i 0 := by
  have hidx : (0x40000 + 4 * i - 0x40000) / 4 = i := by omega
  rw [regRead_beyond (by omega), windowRead, if_neg (by omega), if_pos (by omega), hidx,
    List.getD_eq_getElem?_getD]
  cases s.cfg.table[i]? <;> rfl

/-- Settles O17: both windows are in the space; the line has FB_DELAY entries and the table N. -/
theorem indexedWindows : Obligations.IndexedWindows := by
  intro s hv hs
  have htable : s.cfg.table.length = s.cfg.n := (valid_bounds hv).2.2.1
  refine ⟨fun k hk => ⟨_, readsWord_regRead hv (by omega) (by omega), ?_, fun hle => ?_⟩,
    fun i hi => ⟨_, readsWord_regRead hv (by omega) (by omega), regRead_table s hi, fun hle => ?_⟩⟩
  · rw [regRead_delayLine s hk, BitVec.toInt_signExtend_of_le (by decide)]
    exact (List.getD_map s.fbDly 0 BitVec.toInt).symm
  · rw [regRead_delayLine s hk, List.getD_eq_default _ _ (by rw [hs.line_length]; exact hle)]
    rfl
  · rw [regRead_table s hi, List.getD_eq_default _ _ (by rw [htable]; exact hle)]

end Sys2Proof.Proofs
end

section
/-! PROOF. Every step keeps the multiplier on the ramp of its half-cycle (obligation O54). -/

namespace Sys2Proof.Proofs

open Sys2Proof Sys2Proof.Machine Sys2Proof.Laws Sys2Proof.Claims

/-- Settles O54: taking the event leaves the ramp alone, and each kind of event keeps the multiplier on it. -/
theorem multiplierStaysOnItsRamp : Obligations.MultiplierStaysOnItsRamp := by
  intro s t heng hramp hstep
  obtain ⟨hv, ⟨-, rfl⟩ | ⟨e, rest, -, hrun⟩⟩ := step_next hstep
  · exact hramp
  · have hb : EngInv (beginEvent rest s) := engInv_of_sameEngine heng (by constructor <;> rfl) (.inl rfl) id
    exact rampInv_runEvent (s := beginEvent rest s) hv hb (rampInv_congr hramp rfl rfl rfl) hrun

end Sys2Proof.Proofs
end

section
/-! PROOF. The commands before their tick: the fetch, the clears and the commands that are not accepted
(obligations O9, O11, O21, O22, O23, O27). -/

namespace Sys2Proof.Proofs

open Sys2Proof Sys2Proof.Machine Sys2Proof.Laws Sys2Proof.Claims

/-! ### The fetch (40_engine_commands.md R150 step A) -/

/-- The state in which an `eng_tick` with the inputs `p` fetches its command. -/
def sampled (p : EngIn) (rest : List Event) (s : State) : State :=
  { beginEvent rest s with
    ports.fbIn := p.fb, ports.vbusIn := p.vbus, ports.vbattAvg := p.vbatt, ports.rmsOffset := p.rms }

/-- The step that takes an `eng_tick` is the tick of the sampled state. -/
theorem step_engTick {s : State} (hv : s.cfg.valid = true) {p : EngIn} {rest : List Event}
    (he : s.events = p.event :: rest) : step s = engTick (sampled p rest s) :=
  step_event hv he

/-- Settles O9: both events put the inputs on the ports and fetch from the latch. -/
theorem stepRunsTheLatchedCommand : Obligations.StepRunsTheLatchedCommand := by
  intro s i p ac rest hv hi
  refine ⟨?_, ?_⟩
  · rw [step_engTick (s := withEvents s (p.event :: rest)) hv rfl]
    exact engTick_command hi
  · rw [step_withEvents hv]
    exact congrArg (fun o => andThen o fun t => .next (tickZc .inv t)) (engTick_command hi)

/-- A byte of no command decodes to an error (30_encoding.md R103). -/
theorem engTick_of_reserved {s : State} (h : 7 ≤ s.cmdLatch.toNat) :
    engTick s = exec .none (emptyLatch s) := by
  obtain ⟨e, he⟩ := (codesFromSevenAreReserved s.cmdLatch).2 h
  exact engTick_reserved he

/-- An empty latch holds NONE (30_encoding.md R101). -/
theorem engTick_of_emptyLatch {s : State} (h : s.cmdLatch = 0) : engTick s = exec .none s :=
  engTick_command ((decodeCmd_eq_ok_iff _ _).2 ⟨rfl, h.symm⟩)

/-- Settles O11: both ticks are that of NONE with the latch empty, and NONE keeps it so. -/
theorem reservedCodeIsDiscarded : Obligations.ReservedCodeIsDiscarded := by
  intro s p rest hv hl
  have hleft : step (withEvents s (p.event :: rest)) = exec .none (emptyLatch (sampled p rest s)) :=
    (step_engTick (s := withEvents s (p.event :: rest)) hv rfl).trans (engTick_of_reserved hl)
  have hright : step (withEvents { s with cmdLatch := 0 } (p.event :: rest)) =
      exec .none (emptyLatch (sampled p rest s)) :=
    (step_engTick (s := withEvents { s with cmdLatch := 0 } (p.event :: rest)) hv rfl).trans
      (engTick_of_emptyLatch rfl)
  refine ⟨hleft.trans hright.symm, fun t ht => ?_⟩
  exact execNone_cmdLatch (hleft.symm.trans ht)

/-! ### The clears (40 R131, R137, R143) -/

/-- The engine cleared and the latch emptied, as RESET and STOP leave them. -/
def cleared (s : State) : State := emptyLatch (engineClear (beginTick s))

theorem exec_reset (s : State) : exec .reset s = .next (cleared s) := rfl

theorem exec_stop (s : State) : exec .stop s = .next (cleared s) := rfl

/-- A state whose delay line is clear is all that the clear leaves of it. -/
theorem cleared_fbDly (s : State) : (cleared s).fbDly = List.replicate s.fbDly.length 0 := List.map_const' ..

theorem cleared_cleared (s : State) : cleared (cleared s) = cleared s := by
  have hline : (cleared (cleared s)).fbDly = (cleared s).fbDly := by
    rw [cleared_fbDly, cleared_fbDly, List.length_replicate]
  exact congrArg (fun l => { cleared s with fbDly := l }) hline

/-- Settles O21: both commands are the one clear. -/
theorem resetAndStopClearTheEngine : Obligations.ResetAndStopClearTheEngine := by
  intro s
  have hagain : exec .reset (cleared s) = .next (cleared s) := by rw [exec_reset, cleared_cleared]
  exact ⟨cleared s, rfl, rfl, rfl, rfl, rfl, rfl, rfl, cleared_fbDly s, rfl, rfl, rfl, rfl, rfl, rfl, rfl, rfl,
    rfl, rfl, rfl, rfl, rfl, rfl, hagain, hagain⟩

/-- Every command but RESET and STOP is a step B and the tick after it. -/
theorem exec_eq_commandTick {i : Instr} (hi : i ∈ commands) (hr : i ≠ .reset) (hs : i ≠ .stop) :
    ∃ f, ∀ s, exec i s = commandTick f s := by
  cases i, (mem_commands i).1 hi using cmd8_cases with
  | none => exact ⟨fun s => s, fun _ => rfl⟩
  | reset => exact absurd rfl hr
  | softStart => exact ⟨acceptStart .softStart, fun _ => rfl⟩
  | start => exact ⟨acceptStart .start, fun _ => rfl⟩
  | ping => exact ⟨acceptStart .ping, fun _ => rfl⟩
  | softStop => exact ⟨acceptSoftStop, fun _ => rfl⟩
  | stop => exact absurd rfl hs

/-- Settles O27: the forced stop comes before step B, and is RESET's clear but for the latch. -/
theorem shutdownForcesTheStop : Obligations.ShutdownForcesTheStop := by
  intro s i hi hr hst hshut hactive
  obtain ⟨f, hf⟩ := exec_eq_commandTick hi hr hst
  refine ⟨engineClear (beginTick s), cleared s, ?_, rfl, rfl⟩
  rw [hf, commandTick, if_pos ⟨hshut, hactive⟩]

/-! ### Commands that wait or are discarded (40 R132, R133, R138, R142) -/

/-- No forced stop in this tick (40 R143). -/
def unforced (s : State) : Prop := ¬ (s.ovl.state = .shutdown ∧ s.seq.engState ≠ .idle)

/-- A command whose step B leaves what NONE would find in `u` runs as NONE in `u`. -/
theorem commandTick_eq_execNone {f : State → State} {s u : State} (hs : unforced s) (hu : unforced u)
    (hf : f (beginTick s) = beginTick u) : commandTick f s = exec .none u := by
  show commandTick f s = commandTick (fun t => t) u
  rw [commandTick, commandTick, if_neg hs, if_neg hu, hf]

/-- A command whose step B leaves everything runs as NONE. -/
theorem commandTick_of_waiting {f : State → State} {s : State} (hf : f (beginTick s) = beginTick s) :
    commandTick f s = exec .none s := by
  show commandTick f s = commandTick (fun t => t) s
  rw [commandTick, commandTick, hf]

/-- Is the engine at a point where no waiting command is taken from the latch (40 R132)? -/
def busy (s : State) : Prop :=
  s.seq.engState = .softStart ∨ s.seq.engState = .ping ∨ s.seq.engState = .softStop ∨
    (s.seq.engState = .normal ∧ ¬ (s.seq.phase = .positive ∧ s.seq.idx = 0))

theorem atCycleStart_iff (s : State) : atCycleStart s = true ↔ s.seq.phase = .positive ∧ s.seq.idx = 0 := by
  simp [atCycleStart]

theorem acceptStart_of_busy {s : State} (h : busy s) (k : StartCmd) : acceptStart k s = s := by
  unfold acceptStart
  rcases h with h | h | h | ⟨h, hstart⟩ <;> rw [h]
  exact if_neg (mt (atCycleStart_iff s).1 hstart)

theorem acceptSoftStop_of_busy {s : State} (h : busy s) : acceptSoftStop s = s := by
  unfold acceptSoftStop
  rcases h with h | h | h | ⟨h, hstart⟩ <;> rw [h]
  exact if_neg (mt (atCycleStart_iff s).1 hstart)

theorem acceptStart_of_cycleStart {s : State} (he : s.seq.engState = .normal) (hp : s.seq.phase = .positive)
    (hidx : s.seq.idx = 0) (k : StartCmd) : acceptStart k s = emptyLatch s := by
  unfold acceptStart
  rw [he]
  exact if_pos ((atCycleStart_iff s).2 ⟨hp, hidx⟩)

theorem startAllowed_iff (s : State) : startAllowed s = true ↔
    s.flags.feedbackReversed = false ∧ s.flags.outputShorted = false ∧ s.ovl.state ≠ .shutdown := by
  simp [startAllowed, and_assoc]

theorem acceptStart_of_forbidden {s : State} (he : s.seq.engState = .idle) (hno : startAllowed s ≠ true)
    (k : StartCmd) : acceptStart k s = emptyLatch s := by
  unfold acceptStart
  rw [he]
  exact congrArg emptyLatch (if_neg hno)

theorem acceptStart_of_allowed {s : State} (he : s.seq.engState = .idle) (hok : startAllowed s = true)
    (k : StartCmd) : acceptStart k s = emptyLatch (applyStart k s) := by
  unfold acceptStart
  rw [he]
  exact congrArg emptyLatch (if_pos hok)

theorem acceptSoftStop_of_idle {s : State} (he : s.seq.engState = .idle) : acceptSoftStop s = emptyLatch s := by
  unfold acceptSoftStop
  rw [he]

theorem acceptSoftStop_of_cycleStart {s : State} (he : s.seq.engState = .normal) (hp : s.seq.phase = .positive)
    (hidx : s.seq.idx = 0) : acceptSoftStop s = emptyLatch { s with seq.engState := .softStop } := by
  unfold acceptSoftStop
  rw [he]
  exact if_pos ((atCycleStart_iff s).2 ⟨hp, hidx⟩)

/-- The waiting commands are the three starts and SOFT_STOP. -/
theorem exec_waiting {i : Instr} (hi : i ∈ waitingCommands) :
    (i ≠ .softStop ∧ ∃ k, ∀ s, exec i s = commandTick (acceptStart k) s) ∨ i = .softStop := by
  simp only [waitingCommands, List.mem_cons, List.not_mem_nil, or_false] at hi
  obtain rfl | rfl | rfl | rfl := hi
  · exact .inl ⟨nofun, .softStart, fun _ => rfl⟩
  · exact .inl ⟨nofun, .start, fun _ => rfl⟩
  · exact .inl ⟨nofun, .ping, fun _ => rfl⟩
  · exact .inr rfl

/-- Settles O23: step B of each command, where it leaves the command and where it drops it. -/
theorem commandsWaitOrAreDiscarded : Obligations.CommandsWaitOrAreDiscarded := by
  intro s i hi
  refine ⟨fun hbusy => ?_, fun he hp hidx hshut hne => ?_, fun he hwhy => ?_⟩
  · obtain ⟨-, k, hk⟩ | rfl := exec_waiting hi
    · rw [hk]; exact commandTick_of_waiting (acceptStart_of_busy (s := beginTick s) hbusy k)
    · exact commandTick_of_waiting (acceptSoftStop_of_busy (s := beginTick s) hbusy)
  · obtain ⟨-, k, hk⟩ | rfl := exec_waiting hi
    · have hunforced : unforced s := fun h => hshut h.1
      rw [hk]
      exact commandTick_eq_execNone hunforced hunforced
        (acceptStart_of_cycleStart (s := beginTick s) he hp hidx k)
    · exact absurd rfl hne
  · have hunforced : unforced s := fun h => h.2 he
    obtain ⟨hstart, k, hk⟩ | rfl := exec_waiting hi
    · have hno : startAllowed (beginTick s) ≠ true := fun hok => by
        obtain ⟨hrev, hshort, hshut⟩ := (startAllowed_iff _).1 hok
        rcases hwhy with h | h | h | h
        · exact hstart h
        · exact nomatch h.symm.trans hrev
        · exact nomatch h.symm.trans hshort
        · exact hshut h
      rw [hk]
      exact commandTick_eq_execNone hunforced hunforced (acceptStart_of_forbidden (s := beginTick s) he hno k)
    · exact commandTick_eq_execNone hunforced hunforced (acceptSoftStop_of_idle (s := beginTick s) he)

/-! ### The IDLE tick (40 R151) -/

theorem finishTick_idle {s : State} (he : s.seq.engState = .idle) : finishTick s = .next (idleTick s) := by
  rw [finishTick, if_pos he]

theorem execNone_of_idle {s : State} (he : s.seq.engState = .idle) :
    exec .none s = .next (idleTick (beginTick s)) := by
  show commandTick (fun t => t) s = _
  rw [commandTick, if_neg fun h => h.2 he]
  exact finishTick_idle he

/-- Settles O22: an IDLE tick forces the outputs off, where the invariant has them already. -/
theorem idleTickOnlyHoldsTheOutputsOff : Obligations.IdleTickOnlyHoldsTheOutputsOff := by
  intro s he
  refine ⟨execNone_of_idle he, fun hs => ⟨_, execNone_of_idle he, ?_⟩⟩
  rw [idleTick_eq_self (s := beginTick s) he (engInv_beginTick hs), beginTick_drive]

end Sys2Proof.Proofs
end

section
/-! PROOF. The tick of an active engine up to its advance, and the open-loop ticks inside a half-cycle
(obligations O24, O26, O30). -/

namespace Sys2Proof.Proofs

open Sys2Proof Sys2Proof.Machine Sys2Proof.Laws Sys2Proof.Claims

/-- Two states are the same when every group is. -/
theorem state_eq_iff {s t : State} : s = t ↔
    s.cfg = t.cfg ∧ s.cmdLatch = t.cmdLatch ∧ s.seq = t.seq ∧ s.ramp = t.ramp ∧ s.pid = t.pid ∧
    s.flatTop = t.flatTop ∧ s.fbDly = t.fbDly ∧ s.rebal = t.rebal ∧ s.satDet = t.satDet ∧ s.safe = t.safe ∧
    s.fbZeroCount = t.fbZeroCount ∧ s.drive = t.drive ∧ s.flags = t.flags ∧ s.ovl = t.ovl ∧
    s.zcChg = t.zcChg ∧ s.zcInv = t.zcInv ∧ s.pulses = t.pulses ∧ s.ports = t.ports ∧
    s.busRdata = t.busRdata ∧ s.events = t.events := by
  cases s; cases t; simp only [State.mk.injEq]

/-! ### The parts of a tick (40_engine_commands.md R150 steps D to H) -/

/-- The table entry of the index of this tick. -/
def entry (s : State) : U32 := s.cfg.table.getD s.seq.idx.toNat 0

/-- The state after the self-tests of a tick (step E). -/
def tested (s : State) : State := peakTests (fbSample s) (shiftFeedback s)

/-- What the duty computation of a tick leaves, and the duty (step F). -/
def computed (x : U32) (s : State) : State × U16 :=
  tickDuty x (baseDuty x s.ramp.multiplier) (fbUsed s) (tested s)

/-- The state of a tick before its advance (steps D to H). -/
def preAdvance (x : U32) (s : State) : State := accumulate (driveStep (computed x s).2 (computed x s).1)

theorem activeTick_eq_advance (x : U32) (s : State) : activeTick x s = advance (preAdvance x s) := rfl

@[simp] theorem peakTests_phase (f : S17) (s : State) : (peakTests f s).seq.phase = s.seq.phase := by
  rcases peakTests_cases f s with ht | ⟨-, _, -, ht⟩ | ⟨-, ht⟩ | ⟨-, -, _, -, ht⟩ <;> rw [ht] <;> rfl

/-- The self-tests write the fault flags, the near-zero counter and `eng_state`; the line has shifted before
them. -/
theorem tested_frame (s : State) : tested s = { s with
    fbDly := (shiftFeedback s).fbDly
    seq.engState := (tested s).seq.engState
    flags := (tested s).flags
    fbZeroCount := (tested s).fbZeroCount } := by
  rw [tested]
  rcases peakTests_cases (fbSample s) (shiftFeedback s) with ht | ⟨-, _, -, ht⟩ | ⟨-, ht⟩ | ⟨-, -, _, -, ht⟩ <;>
    rw [ht] <;> rfl

@[simp] theorem preAdvance_cfg (x : U32) (s : State) : (preAdvance x s).cfg = s.cfg := by
  simp [preAdvance, computed, tested]
@[simp] theorem preAdvance_cmdLatch (x : U32) (s : State) : (preAdvance x s).cmdLatch = s.cmdLatch := by
  simp [preAdvance, computed, tested]
@[simp] theorem preAdvance_seq (x : U32) (s : State) : (preAdvance x s).seq = (tested s).seq := by
  simp [preAdvance, computed]
@[simp] theorem preAdvance_ramp (x : U32) (s : State) : (preAdvance x s).ramp = s.ramp := by
  simp [preAdvance, computed, tested]
@[simp] theorem preAdvance_pid (x : U32) (s : State) : (preAdvance x s).pid = (computed x s).1.pid := by
  simp [preAdvance]
@[simp] theorem preAdvance_flatTop (x : U32) (s : State) :
    (preAdvance x s).flatTop = (computed x s).1.flatTop := by
  simp [preAdvance]
@[simp] theorem preAdvance_fbDly (x : U32) (s : State) :
    (preAdvance x s).fbDly = (shiftFeedback s).fbDly := by
  simp [preAdvance, computed, tested]
@[simp] theorem preAdvance_safe (x : U32) (s : State) : (preAdvance x s).safe = s.safe := by
  simp [preAdvance, computed, tested]
@[simp] theorem preAdvance_fbZeroCount (x : U32) (s : State) :
    (preAdvance x s).fbZeroCount = (tested s).fbZeroCount := by
  simp [preAdvance, computed]
@[simp] theorem preAdvance_flags (x : U32) (s : State) : (preAdvance x s).flags = (tested s).flags := by
  simp [preAdvance, computed]
@[simp] theorem preAdvance_zcChg (x : U32) (s : State) : (preAdvance x s).zcChg = s.zcChg := by
  simp [preAdvance, computed, tested]
@[simp] theorem preAdvance_zcInv (x : U32) (s : State) : (preAdvance x s).zcInv = s.zcInv := by
  simp [preAdvance, computed, tested]
@[simp] theorem preAdvance_pulses (x : U32) (s : State) : (preAdvance x s).pulses = s.pulses := by
  simp [preAdvance, computed, tested]
@[simp] theorem preAdvance_ports (x : U32) (s : State) : (preAdvance x s).ports = s.ports := by
  simp [preAdvance, computed, tested]
@[simp] theorem preAdvance_busRdata (x : U32) (s : State) : (preAdvance x s).busRdata = s.busRdata := by
  simp [preAdvance, computed, tested]
@[simp] theorem preAdvance_events (x : U32) (s : State) : (preAdvance x s).events = s.events := by
  simp [preAdvance, computed, tested]

@[simp] theorem tested_idx (s : State) : (tested s).seq.idx = s.seq.idx := by simp [tested]
@[simp] theorem tested_phase (s : State) : (tested s).seq.phase = s.seq.phase := by simp [tested]

/-- The accumulators are the only sums that a tick writes before its advance (44_clamp_saturation.md R270,
R280). -/
theorem preAdvance_rebal (x : U32) (s : State) : (preAdvance x s).rebal =
    { s.rebal with dutyAcc := accU32 s.rebal.dutyAcc (preAdvance x s).drive.dutyOut } := by
  simp [preAdvance, accumulate, computed, tested]

theorem preAdvance_satDet (x : U32) (s : State) : (preAdvance x s).satDet =
    { s.satDet with satAcc :=
        if s.cfg.satTailStart ≤ s.seq.idx.toNat then accU32 s.satDet.satAcc s.ports.vbusIn
        else s.satDet.satAcc } := by
  simp [preAdvance, accumulate, computed, tested]

/-! ### What each part does, in the terms of the claims -/

theorem fbSample_eq_corrected (s : State) : (fbSample s).toInt = corrected s := fbSample_toInt s

/-- The drive step of a tick, seen from the state the tick begins in (44 R291 to R293). -/
theorem driven_of_driveStep {s t u : State} {d : U16} (hovl : u.ovl = s.ovl) (hphase : u.seq.phase = s.seq.phase)
    (hdrive : t.drive = (driveStep d u).drive) (htovl : t.ovl = (driveStep d u).ovl) :
    driven s t d.toNat := by
  rw [driveStep_spec, hovl, hphase] at hdrive htovl
  unfold driven
  split
  · next hskip =>
    rw [if_pos hskip] at hdrive htovl
    cases hp : s.seq.phase <;> simp [hdrive, htovl, hp]
  · next hskip =>
    rw [if_neg hskip] at hdrive htovl
    rw [decU16_of_ne_zero hskip] at htovl
    exact ⟨hdrive, htovl⟩

theorem driven_preAdvance (x : U32) (s : State) : driven s (preAdvance x s) (computed x s).2.toNat :=
  driven_of_driveStep (u := (computed x s).1) (by simp [computed, tested]) (by simp [computed]) rfl rfl

/-- The skip count is the only part of the overload group that a tick writes (44 R293). -/
theorem preAdvance_ovl (x : U32) (s : State) : (preAdvance x s).ovl = skipCounted s := by
  have hd := driven_preAdvance x s
  unfold driven at hd
  unfold skipCounted
  split at hd
  · next hskip => rw [if_pos hskip]; exact hd.2.1
  · next hskip => rw [if_neg hskip]; exact hd.2

theorem lined_shiftFeedback {s t : State} (hl : s.fbDly.length = s.cfg.fbDelay)
    (ht : t.fbDly = (shiftFeedback s).fbDly) : lined s t := by
  unfold lined
  rw [ht, shiftFeedback_line, hl, List.map_take, List.map_cons, fbSample_eq_corrected]

section Sums

variable {s : State} (hv : s.cfg.valid = true) (h : EngInv s)
include hv h

/-- No sum of a half-cycle saturates (70_reset_and_hazards.md R473). -/
theorem preAdvance_dutyAcc (x : U32) : (preAdvance x s).rebal.dutyAcc.toNat = dutySum s (preAdvance x s) := by
  obtain ⟨-, hn, -⟩ := valid_bounds hv
  have hidx := h.idx_lt
  have hacc := h.duty_acc_le
  have hd := (preAdvance x s).drive.dutyOut.isLt
  rw [preAdvance_rebal]
  exact accU32_of_le (by omega)

theorem preAdvance_satAcc (x : U32) : (preAdvance x s).satDet.satAcc.toNat = tailSum s := by
  obtain ⟨-, hn, -⟩ := valid_bounds hv
  have hidx := h.idx_lt
  have hacc := h.sat_acc_le
  have hd := s.ports.vbusIn.isLt
  rw [preAdvance_satDet, tailSum]
  dsimp only
  split
  · exact accU32_of_le (by omega)
  · rfl

end Sums

/-! ### The self-tests, in the terms of the claims (44 R295 to R297) -/

/-- The self-tests of the tick from `s` have left their results in `t`. -/
structure TestsDone (s t : State) : Prop where
  state : stateAfterTests s t.seq.engState
  flags : flagsAfterTests s t
  zero : t.fbZeroCount.toNat = zeroCountNow s

/-- Away from their index and outside SOFT_START and NORMAL there is no test. -/
theorem testsDone_of_untested {s : State} (h : ¬ (atPeak s ∧ (s.seq.engState = .softStart ∨ s.seq.engState = .normal))) :
    TestsDone s (shiftFeedback s) := by
  have hrev : ¬ reversedNow s := fun ⟨he, hp, _⟩ => h ⟨hp, .inl he⟩
  have hshort : ¬ shortedNow s := fun ⟨he, hp, _⟩ => h ⟨hp, .inr he⟩
  have hzero : ¬ (s.seq.engState = .normal ∧ s.seq.idx.toNat = s.cfg.n / 2) := fun ⟨he, hp⟩ => h ⟨hp, .inr he⟩
  exact ⟨.inr ⟨hrev, hshort, rfl⟩, ⟨by simp [hrev], by simp [hshort]⟩, by rw [zeroCountNow, if_neg hzero]; rfl⟩

theorem testsDone_softStart {s : State} (he : s.seq.engState = .softStart) (hp : atPeak s) :
    TestsDone s (tested s) := by
  have hshort : ¬ shortedNow s := fun ⟨hn, _⟩ => nomatch he.symm.trans hn
  have hzero : zeroCountNow s = s.fbZeroCount.toNat := if_neg fun ⟨hn, _⟩ => nomatch he.symm.trans hn
  have hrev : reversedNow s ↔ (fbSample s).toInt < -(s.cfg.noiseBand.toNat : Int) := by
    rw [fbSample_eq_corrected]; exact ⟨fun h => h.2.2, fun h => ⟨he, hp, h⟩⟩
  have ht : tested s = _ := (peakTests_spec (fbSample s) (shiftFeedback s)).2.2.1 hp he
  rw [ht]
  split
  · next hlow =>
    have hnow := hrev.2 hlow
    exact ⟨.inl ⟨.inl hnow, rfl⟩, ⟨by simp [hnow], by simp [hshort]⟩, hzero.symm⟩
  · next hlow =>
    have hnow := mt hrev.1 hlow
    exact ⟨.inr ⟨hnow, hshort, rfl⟩, ⟨by simp [hnow], by simp [hshort]⟩, hzero.symm⟩

theorem testsDone_normal {s : State} (hz : s.fbZeroCount.toNat < s.cfg.fbZeroCountMax.toNat)
    (he : s.seq.engState = .normal) (hp : atPeak s) : TestsDone s (tested s) := by
  have hrev : ¬ reversedNow s := fun ⟨hs, _⟩ => nomatch he.symm.trans hs
  obtain ⟨z, hzdef, ht⟩ := (peakTests_spec (fbSample s) (shiftFeedback s)).2.2.2 hp he
  have hzero : z.toNat = zeroCountNow s := by
    have hmax := s.cfg.fbZeroCountMax.isLt
    rw [zeroCountNow, if_pos ⟨he, hp⟩, ← fbSample_eq_corrected, hzdef]
    show (if (fbSample s).toInt.natAbs < s.cfg.noiseBand.toNat then incU16 s.fbZeroCount else 0).toNat = _
    split
    · exact incU16_of_lt (by omega)
    · rfl
  have hshort : shortedNow s ↔ s.cfg.fbZeroCountMax.toNat ≤ z.toNat := by
    rw [hzero]; exact ⟨fun h => h.2.2, fun h => ⟨he, hp, h⟩⟩
  rw [show tested s = _ from ht]
  split
  · next hmany =>
    have hnow := hshort.2 hmany
    exact ⟨.inl ⟨.inr hnow, rfl⟩, ⟨by simp [hrev], by simp [hnow]⟩, hzero⟩
  · next hmany =>
    have hnow := mt hshort.1 hmany
    exact ⟨.inr ⟨hrev, hnow, rfl⟩, ⟨by simp [hrev], by simp [hnow]⟩, hzero⟩

theorem testsDone_tested {s : State} (h : EngInv s) : TestsDone s (tested s) := by
  have hspec := peakTests_spec (fbSample s) (shiftFeedback s)
  by_cases htest : atPeak s ∧ (s.seq.engState = .softStart ∨ s.seq.engState = .normal)
  · obtain ⟨hp, he | he⟩ := htest
    · exact testsDone_softStart he hp
    · exact testsDone_normal (h.zero_count (by simp [he])) he hp
  · have ht : tested s = shiftFeedback s := by
      by_cases hp : atPeak s
      · exact hspec.2.1 (fun he => htest ⟨hp, .inl he⟩) (fun he => htest ⟨hp, .inr he⟩)
      · exact hspec.1 hp
    rw [ht]
    exact testsDone_of_untested htest

theorem TestsDone.flags_of {s t u : State} (h : TestsDone s u) (ht : t.flags = u.flags) : flagsAfterTests s t := by
  unfold flagsAfterTests
  rw [ht]
  exact h.flags

theorem stateAfterTests_pass {s : State} {e : EngState} (h : stateAfterTests s e) (hrev : ¬ reversedNow s)
    (hshort : ¬ shortedNow s) : e = s.seq.engState := by
  obtain ⟨hnow, -⟩ | ⟨-, -, he⟩ := h
  · exact absurd hnow (not_or.2 ⟨hrev, hshort⟩)
  · exact he

theorem stateAfterTests_fail {s : State} {e : EngState} (h : stateAfterTests s e)
    (hfail : reversedNow s ∨ shortedNow s) : e = .softStop := by
  obtain ⟨-, he⟩ | ⟨hrev, hshort, -⟩ := h
  · exact he
  · exact absurd hfail (not_or.2 ⟨hrev, hshort⟩)

theorem flagsAfterTests_pass {s t : State} (h : flagsAfterTests s t) (hrev : ¬ reversedNow s)
    (hshort : ¬ shortedNow s) : t.flags = s.flags := by
  obtain ⟨hfr, hfs⟩ := h
  have h1 : t.flags.feedbackReversed = s.flags.feedbackReversed := by simpa [hrev] using hfr
  have h2 : t.flags.outputShorted = s.flags.outputShorted := by simpa [hshort] using hfs
  exact (EngFlags.mk.injEq ..).mpr ⟨h1, h2⟩

theorem not_shortedNow {s : State} (h : s.seq.engState ≠ .normal) : ¬ shortedNow s := fun hs => h hs.1

theorem not_reversedNow {s : State} (h : s.seq.engState ≠ .softStart) : ¬ reversedNow s := fun hs => h hs.1

/-! ### A tick that runs -/

@[simp] theorem beginTick_pulses (s : State) :
    (beginTick s).pulses = { s.pulses with halfCycle := false, fullCycle := false } := rfl

theorem ticking_beginTick {s : State} (h : ticking s) : ticking (beginTick s) := by
  obtain ⟨hv, hs, ha, hshut⟩ := h
  exact ⟨hv, engInv_beginTick hs, ha, hshut⟩

/-- NONE in a state that is fit for a tick runs it. -/
theorem execNone_of_ticking {s : State} (h : ticking s) :
    exec .none s = .next (advance (preAdvance (entry s) (beginTick s))) := by
  obtain ⟨hv, hs, ha, hshut⟩ := h
  show commandTick (fun t => t) s = _
  rw [commandTick, if_neg fun hf => hshut hf.1]
  rw [← activeTick_eq_advance]
  exact finishTick_active (s := beginTick s) hv hs.idx_lt ha

theorem incU16_eq_add_one {x : U16} (h : x.toNat < 65535) : incU16 x = x + 1 :=
  BitVec.eq_of_toNat_eq (by rw [incU16_of_lt h, BitVec.toNat_add]; simp; omega)

/-- Inside a half-cycle the tick moves to the next index (42_sine_table_lookup.md R214). -/
theorem advance_preAdvance_inside {s : State} (hv : s.cfg.valid = true) (hn : s.seq.idx.toNat + 1 < s.cfg.n)
    (x : U32) : advance (preAdvance x s) =
      { preAdvance x s with seq := ⟨(tested s).seq.engState, s.seq.phase, s.seq.idx + 1⟩ } := by
  obtain ⟨-, hmax, -⟩ := valid_bounds hv
  have hseq : { (tested s).seq with idx := incU16 (tested s).seq.idx } =
      (⟨(tested s).seq.engState, s.seq.phase, s.seq.idx + 1⟩ : SeqState) := by
    rw [SeqState.mk.injEq]
    exact ⟨rfl, tested_phase s, by rw [tested_idx, incU16_eq_add_one (by omega)]⟩
  rw [advance_inside (by simp; omega), preAdvance_seq, hseq]

/-! ### Open loop (40 R152, R161) -/

/-- The open-loop duty is the clamped product, and the PID state is left alone. -/
theorem computed_open {s : State} (x : U32) (he : (tested s).seq.engState ≠ .normal) :
    computed x s = (tested s, clampDuty s.cfg (baseDuty x s.ramp.multiplier)) := by
  rw [computed, tickDuty, if_neg he, tested, peakTests_cfg, shiftFeedback_cfg]

theorem clampDuty_entry {s : State} (hv : s.cfg.valid = true) :
    (clampDuty s.cfg (baseDuty (entry s) s.ramp.multiplier)).toNat = openDuty s := by
  obtain ⟨-, -, -, hle, -⟩ := valid_bounds hv
  have hclamp := clampDuty_toNat hle (baseDuty (entry s) s.ramp.multiplier)
  unfold openDuty
  change _ = max s.cfg.minDuty.toNat (min (baseDuty (entry s) s.ramp.multiplier) s.cfg.maxDuty.toNat)
  omega

theorem tested_not_normal {s : State} (h : EngInv s) (he : s.seq.engState ≠ .normal) :
    (tested s).seq.engState ≠ .normal := by
  obtain ⟨-, hstate⟩ | ⟨-, -, hstate⟩ := (testsDone_tested h).state
  · simp [hstate]
  · rwa [hstate]

theorem tested_fbZeroCount {s : State} (h : EngInv s) (he : s.seq.engState ≠ .normal) :
    (tested s).fbZeroCount = s.fbZeroCount :=
  BitVec.eq_of_toNat_eq ((testsDone_tested h).zero.trans (if_neg fun hn => he hn.1))

/-- Settles O30: the parts of an open-loop tick, put together. -/
theorem openLoopTick : Obligations.OpenLoopTick := by
  intro s hs he hn
  obtain ⟨hv, hb, ha, -⟩ := ticking_beginTick hs
  have hdone := testsDone_tested hb
  have hopen := computed_open (entry s) (tested_not_normal hb he)
  have hpid : (tested (beginTick s)).pid = s.pid := by rw [tested_frame]; rfl
  have hflatTop : (tested (beginTick s)).flatTop = s.flatTop := by rw [tested_frame]; rfl
  have hdriven := driven_preAdvance (entry s) (beginTick s)
  rw [show (computed (entry s) (beginTick s)).2.toNat = openDuty s by
    rw [hopen]; exact clampDuty_entry (s := beginTick s) hv] at hdriven
  refine ⟨_, (tested (beginTick s)).seq.engState, execNone_of_ticking hs, hdone.state, ?_⟩
  rw [advance_preAdvance_inside (s := beginTick s) hv hn]
  refine ⟨rfl, ?_, hdriven, ?_, preAdvance_dutyAcc hv hb _, preAdvance_satAcc hv hb _, ?_⟩
  · exact hdone.flags_of (by simp)
  · exact lined_shiftFeedback (s := beginTick s) hb.line_length (by simp)
  · refine state_eq_iff.2 ?_
    simp [hopen, hpid, hflatTop, tested_fbZeroCount hb he, preAdvance_rebal, preAdvance_satDet]

/-! ### The first tick of a cycle (40 R134, R136, R138) -/

/-- The feedback tests come after index 0 (00_scope.md R13). -/
theorem not_atPeak_of_first {s : State} (hv : s.cfg.valid = true) (hidx : s.seq.idx = 0) : ¬ atPeak s := by
  obtain ⟨hn, -⟩ := valid_bounds hv
  rw [atPeak, hidx]
  simp
  omega

theorem eq_setWidth_of_toNat_eq {a : U32} {b : U16} (h : a.toNat = b.toNat) : a = b.setWidth 32 :=
  BitVec.eq_of_toNat_eq (by rw [h, BitVec.toNat_setWidth_of_le (by decide)])

/-- At index 0 the sums begin with this tick's duty and sample (44 R270, R280). -/
theorem firstSums {s t : State} (hs : EngInv s) (hidx : s.seq.idx = 0)
    (hduty : t.rebal.dutyAcc.toNat = dutySum s t) (htail : t.satDet.satAcc.toNat = tailSum s) :
    t.rebal.dutyAcc = t.drive.dutyOut.setWidth 32 ∧
    t.satDet.satAcc = if s.cfg.satTailStart = 0 then s.ports.vbusIn.setWidth 32 else 0 := by
  obtain ⟨-, hacc, hsat⟩ := hs.start_clear hidx
  rw [dutySum, hacc] at hduty
  rw [tailSum, hsat, hidx] at htail
  refine ⟨eq_setWidth_of_toNat_eq (by simpa using hduty), ?_⟩
  split
  · next h0 => exact eq_setWidth_of_toNat_eq (by simpa [h0] using htail)
  · next h0 => exact toNat_eq_zero_iff.1 (by simpa [h0] using htail)

/-- The open-loop tick of index 0. -/
theorem openLoop_firstTick {s : State} (hs : ticking s) (he : s.seq.engState ≠ .normal) (hidx : s.seq.idx = 0) :
    ∃ t, exec .none s = .next t ∧ t.seq = ⟨s.seq.engState, s.seq.phase, 1⟩ ∧ driven s t (openDuty s) ∧ lined s t ∧
      t = { s with
        seq := t.seq, drive := t.drive, ovl := t.ovl, fbDly := t.fbDly
        rebal.dutyAcc := t.drive.dutyOut.setWidth 32
        satDet.satAcc := if s.cfg.satTailStart = 0 then s.ports.vbusIn.setWidth 32 else 0
        pulses.halfCycle := false, pulses.fullCycle := false } := by
  have hv := hs.1
  obtain ⟨hn, -⟩ := valid_bounds hv
  have hrev : ¬ reversedNow s := fun h => not_atPeak_of_first hv hidx h.2.1
  obtain ⟨t, e, ht, hstate, hseq, hflags, hdriven, hlined, hduty, htail, hframe⟩ :=
    openLoopTick s hs he (by rw [hidx]; exact hn)
  obtain rfl := stateAfterTests_pass hstate hrev (not_shortedNow he)
  obtain ⟨hacc, hsat⟩ := firstSums hs.2.1 hidx hduty htail
  refine ⟨t, ht, by rw [hseq, hidx]; rfl, hdriven, hlined, hframe.trans ?_⟩
  rw [flagsAfterTests_pass hflags hrev (not_shortedNow he), hacc, hsat]

/-- The state in which the first tick of a SOFT_STOP runs. -/
def stopping (s : State) : State := emptyLatch { s with seq.engState := .softStop }

/-- Settles O26: SOFT_STOP's tick is an open-loop tick of index 0 in SOFT_STOP. -/
theorem softStopAtTheStartOfACycle : Obligations.SoftStopAtTheStartOfACycle := by
  rintro s ⟨hv, hs, -, hshut⟩ hseq
  have hstop (u : State) (hu : u.seq = s.seq) : acceptSoftStop u = stopping u :=
    acceptSoftStop_of_cycleStart (by rw [hu, hseq]) (by rw [hu, hseq]) (by rw [hu, hseq])
  have hticking : ticking (stopping s) := ⟨hv, hstop s rfl ▸ engInv_acceptSoftStop hs, nofun, hshut⟩
  have hexec : exec .softStop s = exec .none (stopping s) :=
    commandTick_eq_execNone (fun h => hshut h.1) (fun h => hshut h.1) (hstop (beginTick s) rfl)
  obtain ⟨t, ht, htseq, hdriven, hlined, hframe⟩ :=
    openLoop_firstTick hticking nofun (congrArg SeqState.idx hseq)
  have hlatch : t.cmdLatch = 0 := congrArg State.cmdLatch hframe
  refine ⟨t, hexec.trans ht, hlatch, ?_, hdriven, hlined, hframe.trans ?_⟩
  · rw [htseq, show (stopping s).seq = ⟨.softStop, s.seq.phase, s.seq.idx⟩ from rfl, hseq]
  · rw [hlatch]
    rfl

/-! ### The starts (40 R142, R145) -/

/-- The battery-scaled value on integers (41_q16_arithmetic.md R190). -/
theorem scaleByVBatt_toNat (c : Cfg) (x v : U16) :
    (scaleByVBatt c x v).toNat = scaled c.vbattNominal.toNat x.toNat v.toNat := by
  unfold scaleByVBatt scaled
  by_cases hv : v = 0
  · simp [hv]
  · rw [if_neg hv, if_neg (mt toNat_eq_zero_iff.1 hv), satU16_natCast, min_comm]

theorem softStartInc_toNat (c : Cfg) :
    c.softStartInc.toNat = c.softStartMaxDuty.toNat / c.softStartCycles.toNat := BitVec.toNat_udiv

/-- A start from a clear engine writes the state, the foot of the ramp and the gain selection. -/
theorem applyStart_of_idle {s : State} (hs : EngInv s) (he : s.seq.engState = .idle) (k : StartCmd) :
    applyStart k s = { s with
      seq.engState := startTarget k
      ramp := ⟨startMultiplier s.cfg s.ports.vbattAvg k, startRampInc s.cfg s.ports.vbattAvg k, 0, 0, 0⟩
      safe := ⟨s.safe.safeCyclesLeft != 0, s.safe.safeCyclesLeft⟩ } := by
  have hclear := (hs.idle_clear he).1
  obtain ⟨-, -, -, -, hramp, -⟩ := (pidPhaseClear_eq_iff s).1 hclear
  unfold applyStart
  rw [hclear]
  simp only [selectGain, hramp]

/-- The state in which the first tick of a start runs. -/
def started (k : StartCmd) (s : State) : State := emptyLatch (applyStart k s)

theorem started_seq (k : StartCmd) (s : State) : (started k s).seq = ⟨startTarget k, .positive, 0⟩ := rfl

theorem started_of_idle {s : State} (hs : EngInv s) (he : s.seq.engState = .idle) (k : StartCmd) :
    started k s = { s with
      cmdLatch := 0
      seq.engState := startTarget k
      ramp := ⟨startMultiplier s.cfg s.ports.vbattAvg k, startRampInc s.cfg s.ports.vbattAvg k, 0, 0, 0⟩
      safe := ⟨s.safe.safeCyclesLeft != 0, s.safe.safeCyclesLeft⟩ } := by
  rw [started, applyStart_of_idle hs he]; rfl

/-- A start that is allowed in IDLE runs as NONE from the state it has made (40 R132, R145). -/
theorem commandTick_acceptStart {s : State} (he : s.seq.engState = .idle) (hok : startAllowed s = true)
    (k : StartCmd) : commandTick (acceptStart k) s = exec .none (started k s) := by
  have hshut := ((startAllowed_iff s).1 hok).2.2
  exact commandTick_eq_execNone (fun h => hshut h.1) (fun h => hshut h.1)
    (acceptStart_of_allowed (s := beginTick s) he hok k)

theorem ticking_started {s : State} (hv : s.cfg.valid = true) (hs : EngInv s) (he : s.seq.engState = .idle)
    (hok : startAllowed s = true) (k : StartCmd) : ticking (started k s) := by
  have hshut := ((startAllowed_iff s).1 hok).2.2
  exact ⟨hv, engInv_emptyLatch (engInv_applyStart hv hs he hok k), by cases k <;> nofun, hshut⟩

theorem driven_congr {s u t : State} {d : Int} (hovl : u.ovl = s.ovl) (hphase : u.seq.phase = s.seq.phase)
    (h : driven u t d) : driven s t d := by
  unfold driven at *
  rwa [hovl, hphase] at h

theorem lined_congr {s u t : State} (hcfg : u.cfg = s.cfg) (hphase : u.seq.phase = s.seq.phase)
    (hports : u.ports = s.ports) (hline : u.fbDly = s.fbDly) (h : lined u t) : lined s t := by
  unfold lined corrected at *
  rwa [hcfg, hphase, hports, hline] at h

/-- The increment of SOFT_START and PING is their first multiplier (40 R145). -/
theorem startMultiplier_eq_rampInc {k : StartCmd} (hk : k ≠ .start) (c : Cfg) (v : U16) :
    startMultiplier c v k = startRampInc c v k := by
  cases k with
  | softStart => rfl
  | start => exact absurd rfl hk
  | ping => rfl

theorem startTarget_ne_normal {k : StartCmd} (hk : k ≠ .start) : startTarget k ≠ .normal := by
  cases k with
  | softStart => nofun
  | start => exact absurd rfl hk
  | ping => nofun

/-- The increment of a start on integers (40 R145). -/
theorem startRampInc_toNat (c : Cfg) (v : U16) (k : StartCmd) : (startRampInc c v k).toNat =
    max 1 (scaled c.vbattNominal.toNat
      (if k = .ping then c.pingInc.toNat else c.softStartMaxDuty.toNat / c.softStartCycles.toNat) v.toNat) := by
  cases k <;> simp [startRampInc, atLeastOne_toNat, scaleByVBatt_toNat, softStartInc_toNat]

/-- The first tick of SOFT_START and PING: the open-loop tick of index 0. -/
theorem openStart_firstTick {s : State} (hv : s.cfg.valid = true) (hs : EngInv s) (he : s.seq.engState = .idle)
    (hok : startAllowed s = true) {k : StartCmd} (hk : k ≠ .start) :
    ∃ t, commandTick (acceptStart k) s = .next t ∧ t.seq = ⟨startTarget k, .positive, 1⟩ ∧
      driven s t (max s.cfg.minDuty.toNat
        (min (tableAt s * t.ramp.rampInc.toNat / 65536) s.cfg.maxDuty.toNat) : Nat) ∧
      lined s t ∧
      t = { s with
        cmdLatch := 0, seq := t.seq
        ramp := ⟨startRampInc s.cfg s.ports.vbattAvg k, startRampInc s.cfg s.ports.vbattAvg k, 0, 0, 0⟩
        safe := ⟨s.safe.safeCyclesLeft != 0, s.safe.safeCyclesLeft⟩
        drive := t.drive, ovl := t.ovl, fbDly := t.fbDly
        rebal.dutyAcc := t.drive.dutyOut.setWidth 32
        satDet.satAcc := if s.cfg.satTailStart = 0 then s.ports.vbusIn.setWidth 32 else 0
        pulses.halfCycle := false, pulses.fullCycle := false } := by
  have hstarted := started_of_idle hs he k
  rw [startMultiplier_eq_rampInc hk] at hstarted
  obtain ⟨hphase, hidx, -⟩ := (pidPhaseClear_eq_iff s).1 (hs.idle_clear he).1
  have hphase' : (started k s).seq.phase = s.seq.phase := by rw [started_seq, hphase]
  obtain ⟨t, ht, htseq, hdriven, hlined, hframe⟩ := openLoop_firstTick (ticking_started hv hs he hok k)
    (startTarget_ne_normal hk) rfl
  have hduty : openDuty (started k s) = max s.cfg.minDuty.toNat
      (min (tableAt s * t.ramp.rampInc.toNat / 65536) s.cfg.maxDuty.toNat) := by
    have hramp : t.ramp = (started k s).ramp := by rw [hframe]
    rw [hramp, openDuty, tableAt, tableAt, started_seq, hidx, hstarted]
  refine ⟨t, (commandTick_acceptStart he hok k).trans ht, htseq, ?_, ?_, ?_⟩
  · exact hduty ▸ driven_congr (u := started k s) rfl hphase' hdriven
  · exact lined_congr (u := started k s) rfl hphase' rfl (by rw [hstarted]) hlined
  · rw [hstarted] at hframe
    exact hframe

/-- Settles O24: a start is applied, and its tick is the open-loop tick of index 0. -/
theorem softStartAndPingFirstTick : Obligations.SoftStartAndPingFirstTick := by
  intro s i hi hv hs he hrev hshort hshut
  have hok := (startAllowed_iff s).2 ⟨hrev, hshort, hshut⟩
  obtain ⟨k, hk, hexec, hping, htarget⟩ : ∃ k : StartCmd, k ≠ .start ∧ exec i s = commandTick (acceptStart k) s ∧
      (k = .ping ↔ i ≠ .softStart) ∧ startTarget k = if i = .softStart then .softStart else .ping := by
    obtain rfl | rfl := hi
    · exact ⟨.softStart, nofun, rfl, by simp, rfl⟩
    · exact ⟨.ping, nofun, rfl, by simp, rfl⟩
  obtain ⟨t, ht, hseq, hdriven, hlined, hframe⟩ := openStart_firstTick hv hs he hok hk
  have hramp := congrArg State.ramp hframe
  have hinc : t.ramp.rampInc = startRampInc s.cfg s.ports.vbattAvg k := congrArg RampState.rampInc hramp
  refine ⟨t, hexec.trans ht, congrArg State.cmdLatch hframe, by rw [hseq, htarget], ?_, by rw [hinc]; exact hramp,
    congrArg State.safe hframe, hdriven, hlined, ?_, ?_, ?_⟩
  · rw [hinc, startRampInc_toNat]
    simp only [hping, ite_not]
  · rw [show t.rebal.dutyAcc = t.drive.dutyOut.setWidth 32 from congrArg (fun u : State => u.rebal.dutyAcc) hframe,
      BitVec.toNat_setWidth_of_le (by decide)]
  · rw [show t.satDet.satAcc = _ from congrArg (fun u : State => u.satDet.satAcc) hframe]
    dsimp only
    split
    · exact BitVec.toNat_setWidth_of_le (by decide)
    · rfl
  · rw [hframe]

end Sys2Proof.Proofs
end

section
/-! PROOF. The closed-loop computation of a tick of NORMAL on integers, and the first tick of START (obligation
O25). -/

namespace Sys2Proof.Proofs

open Sys2Proof Sys2Proof.Machine Sys2Proof.Laws Sys2Proof.Claims

/-! ### The arithmetic of the corrector (41_q16_arithmetic.md, 43_pid_corrector.md R235 to R240) -/

theorem sat_eq_max_min {lo hi : Int} (h : lo ≤ hi) (v : Int) : sat v lo hi = max lo (min v hi) := by
  unfold sat
  split <;> [omega; (split <;> omega)]

theorem satS32_eq_sat32 (v : Int) : (satS32 v).toInt = sat32 v := by
  rw [satS32_toInt, sat_eq_max_min (by decide), sat32]

theorem q16MulInt_eq_gained (g x : S32) : (q16MulInt g x).toInt = gained g.toInt x.toInt :=
  satS32_eq_sat32 _

/-- The error of a tick fits its register: the set point is at most a table entry times a u16 and an s16. -/
theorem pidError_toInt {s : State} (hv : s.cfg.valid = true) (fb : S17) :
    (pidError s.cfg (entry s) fb s.ports.rmsOffset).toInt =
      (tableAt s * ((s.cfg.rmsSetpoint.toNat : Int) + s.ports.rmsOffset.toInt).toNat / 65536 : Nat) - fb.toInt := by
  have htable : (entry s).toNat ≤ 65536 := table_le hv s.seq.idx.toNat
  have hfb := BitVec.toInt_lt (x := fb)
  have hfb' := BitVec.le_toInt (x := fb)
  have hset := s.cfg.rmsSetpoint.isLt
  have hoff := BitVec.toInt_lt (x := s.ports.rmsOffset)
  norm_num at hfb hfb' hoff
  have hpoint : pidSetpoint s.cfg (entry s) s.ports.rmsOffset ≤ 100000 := by
    have hsum : ((s.cfg.rmsSetpoint.toNat : Int) + s.ports.rmsOffset.toInt).toNat ≤ 100000 := by omega
    have hmul := Nat.mul_le_mul htable hsum
    unfold pidSetpoint
    omega
  exact satS32_of_mem (by omega) (by omega)

theorem iLimit_nonneg {c : Cfg} (hv : c.valid = true) : 0 ≤ c.iLimit.toInt := (valid_bounds hv).2.2.2.2.2.2.2.2.1

/-- The integral of a tick (43 R238): held at 0 inside a window, clamped outside. -/
theorem integrate_integralSum {s : State} (hv : s.cfg.valid = true) (err : S32) :
    (integrate err s).pid.integralSum.toInt =
      if s.flatTop.active then 0
      else max (-s.cfg.iLimit.toInt) (min (s.pid.integralSum.toInt + err.toInt) s.cfg.iLimit.toInt) := by
  have hl := iLimit_nonneg hv
  have hlt := BitVec.toInt_lt (x := s.cfg.iLimit)
  norm_num at hlt
  unfold integrate
  split
  · rfl
  · show (satS32 (sat _ _ _)).toInt = _
    rw [sat_eq_max_min (by omega)]
    exact satS32_of_mem (by omega) (by omega)

theorem integrate_prevError (err : S32) (s : State) : (integrate err s).pid.prevError = s.pid.prevError := by
  unfold integrate
  split <;> rfl

theorem integrate_savedIntegralSum (err : S32) (s : State) :
    (integrate err s).pid.savedIntegralSum = s.pid.savedIntegralSum := by
  unfold integrate
  split <;> rfl

/-- The unclamped duty of a tick (43 R237 to R240). -/
theorem rawDuty_toInt (base : Nat) (err : S32) (s : State) : (rawDuty base err s).toInt =
    sat32 (base + gained s.cfg.kp.toInt err.toInt +
      gained (if s.safe.kiSafeSel then s.cfg.kiSafe.toInt else s.cfg.ki.toInt) s.pid.integralSum.toInt +
      gained s.cfg.kd.toInt (sat32 (err.toInt - s.pid.prevError.toInt))) := by
  rw [rawDuty, satS32_eq_sat32, pTerm, iTerm, dTerm, q16MulInt_eq_gained, q16MulInt_eq_gained,
    q16MulInt_eq_gained, satS32_eq_sat32, gainKi, apply_ite BitVec.toInt]

/-! ### The flat-top window (44_clamp_saturation.md R264 to R266) -/

/-- The window closes in this tick (44 R266). -/
def closing (s : State) : Bool := s.flatTop.active && decide (s.flatTop.endIdx.toNat ≤ s.seq.idx.toNat)

/-- A window opens at this unclamped duty (44 R264). -/
def opening (raw : S32) (s : State) : Bool :=
  !s.flatTop.active && decide ((s.cfg.maxDuty.toNat : Int) < raw.toInt) && decide (s.seq.idx.toNat ≤ s.cfg.n / 2)

/-- The window is still open after the close of this tick. -/
def stillOpen (s : State) : Bool := s.flatTop.active && !closing s

/-- The integral sum that the update of this tick starts from (44 R266). -/
def sumBefore (s : State) : S32 := if closing s then s.pid.savedIntegralSum else s.pid.integralSum

theorem closeFlatTop_eq (s : State) : closeFlatTop s = { s with
    flatTop := ⟨stillOpen s, s.flatTop.endIdx⟩
    pid := ⟨sumBefore s, s.pid.prevError, s.pid.savedIntegralSum⟩ } := by
  unfold closeFlatTop
  change (if closing s = true then _ else _) = _
  split
  · next h => simp [stillOpen, sumBefore, h]
  · next h => simp [stillOpen, sumBefore, h]

theorem openFlatTop_eq (raw : S32) (s : State) : openFlatTop raw s = { s with
    flatTop := ⟨s.flatTop.active || opening raw s,
      if opening raw s then satU16 ((s.cfg.n : Int) - s.seq.idx.toNat) else s.flatTop.endIdx⟩
    pid := ⟨if opening raw s then 0 else s.pid.integralSum, s.pid.prevError,
      if opening raw s then s.pid.integralSum else s.pid.savedIntegralSum⟩ } := by
  unfold openFlatTop
  change (if opening raw s = true then _ else _) = _
  split
  · next h => simp [h]
  · next h => simp [h]

theorem openFlatTop_flatTop (raw : S32) (s : State) : (openFlatTop raw s).flatTop =
    ⟨s.flatTop.active || opening raw s,
     if opening raw s then satU16 ((s.cfg.n : Int) - s.seq.idx.toNat) else s.flatTop.endIdx⟩ := by
  rw [openFlatTop_eq]

theorem openFlatTop_pid (raw : S32) (s : State) : (openFlatTop raw s).pid =
    ⟨if opening raw s then 0 else s.pid.integralSum, s.pid.prevError,
     if opening raw s then s.pid.integralSum else s.pid.savedIntegralSum⟩ := by
  rw [openFlatTop_eq]

theorem chooseDuty_toNat {s : State} (hv : s.cfg.valid = true) (raw : S32) : ((chooseDuty raw s).toNat : Int) =
    if s.flatTop.active then (s.cfg.flatTopDuty.toNat : Int)
    else max (s.cfg.minDuty.toNat : Int) (min raw.toInt s.cfg.maxDuty.toNat) := by
  obtain ⟨-, -, -, hle, -⟩ := valid_bounds hv
  unfold chooseDuty
  split
  · rfl
  · exact clampDuty_toNat hle _

/-- The reduction of a saturating half-cycle, not below MIN_DUTY (44 R284). -/
theorem reduceDuty_toNat (d : U16) (s : State) : ((reduceDuty d s).toNat : Int) =
    if s.satDet.reduceActive && s.seq.phase == s.satDet.reducePhase then
      max (s.cfg.minDuty.toNat : Int) (d.toNat - s.satDet.reduceAmt.toNat)
    else d.toNat := by
  have hd := d.isLt
  have hmin := s.cfg.minDuty.isLt
  unfold reduceDuty
  split
  · rw [satU16_of_mem (by omega) (by omega)]; omega
  · rfl

/-! ### The whole computation (43 R234) -/

/-- The registers in `u` and the duty `d` are the result `r` of the closed-loop computation. -/
structure Computes (r : PidResult) (u : State) (d : U16) : Prop where
  integral : u.pid.integralSum.toInt = r.integral
  prevError : u.pid.prevError.toInt = r.prevError
  saved : u.pid.savedIntegralSum.toInt = r.saved
  active : u.flatTop.active = r.active
  endIdx : u.flatTop.endIdx.toNat = r.endIdx
  duty : (d.toNat : Int) = r.duty

theorem fbUsed_toInt (s : State) : (fbUsed s).toInt = delayed s := by
  rw [delayed, fbUsed, ← fbSample_eq_corrected, List.getLast?_map]
  cases s.fbDly.getLast? <;> rfl

/-- Steps 1 to 3 of 43 R234 on the registers: the window closes, the integral is updated, the other two PID
registers are left. The line and the near-zero counter, which have been written by then, play no part. -/
theorem integrate_closeFlatTop {s t : State} (hv : s.cfg.valid = true) {err : S32} (line : List S17) (zeros : U16)
    (ht : t = integrate err (closeFlatTop { s with fbDly := line, fbZeroCount := zeros })) :
    t.flatTop = ⟨stillOpen s, s.flatTop.endIdx⟩ ∧ t.pid.prevError = s.pid.prevError ∧
    t.pid.savedIntegralSum = s.pid.savedIntegralSum ∧
    t.pid.integralSum.toInt = if stillOpen s then 0
      else max (-s.cfg.iLimit.toInt) (min ((sumBefore s).toInt + err.toInt) s.cfg.iLimit.toInt) := by
  rw [ht, closeFlatTop_eq]
  exact ⟨integrate_flatTop .., integrate_prevError .., integrate_savedIntegralSum ..,
    integrate_integralSum (by exact hv) err⟩

theorem sumBefore_toInt (s : State) : (sumBefore s).toInt =
    if closing s then s.pid.savedIntegralSum.toInt else s.pid.integralSum.toInt :=
  apply_ite BitVec.toInt ..

/-- The result of the closed-loop computation from its error, its sum, its unclamped duty and whether a window
opens. -/
theorem normalResult_eq {s : State} {err sum raw : Int} {opens : Bool}
    (herr : err = (tableAt s * ((s.cfg.rmsSetpoint.toNat : Int) + s.ports.rmsOffset.toInt).toNat / 65536 : Nat)
      - delayed s)
    (hsum : sum = if stillOpen s then 0
      else max (-s.cfg.iLimit.toInt) (min ((sumBefore s).toInt + err) s.cfg.iLimit.toInt))
    (hraw : raw = sat32 (baseDuty (entry s) s.ramp.multiplier + gained s.cfg.kp.toInt err +
      gained (if s.safe.kiSafeSel then s.cfg.kiSafe.toInt else s.cfg.ki.toInt) sum +
      gained s.cfg.kd.toInt (sat32 (err - s.pid.prevError.toInt))))
    (hopens : opens = (!stillOpen s && decide ((s.cfg.maxDuty.toNat : Int) < raw)
      && decide (s.seq.idx.toNat ≤ s.cfg.n / 2))) :
    normalResult s = {
      integral := if opens then 0 else sum
      prevError := err
      saved := if opens then sum else s.pid.savedIntegralSum.toInt
      active := stillOpen s || opens
      endIdx := if opens then s.cfg.n - s.seq.idx.toNat else s.flatTop.endIdx.toNat
      duty := if s.satDet.reduceActive && s.seq.phase == s.satDet.reducePhase then
          max (s.cfg.minDuty.toNat : Int) ((if stillOpen s || opens then (s.cfg.flatTopDuty.toNat : Int)
            else max (s.cfg.minDuty.toNat : Int) (min raw s.cfg.maxDuty.toNat)) - s.satDet.reduceAmt.toNat)
        else if stillOpen s || opens then (s.cfg.flatTopDuty.toNat : Int)
          else max (s.cfg.minDuty.toNat : Int) (min raw s.cfg.maxDuty.toNat) } := by
  have hheld : (if stillOpen s || opens then 0 else sum) = if opens then 0 else sum := by
    rw [hsum]
    cases stillOpen s <;> cases opens <;> rfl
  rw [← hheld]
  subst hopens hraw hsum herr
  rw [sumBefore_toInt]
  rfl

/-- The corrector computes the formulas of 43 R234 on its registers; it reads neither the line, which has
shifted by then, nor the near-zero counter. -/
theorem computes_normalDuty {s : State} (hv : s.cfg.valid = true) (hidx : s.seq.idx.toNat ≤ s.cfg.n)
    (line : List S17) (zeros : U16) {p : State × U16}
    (hp : p = normalDuty (entry s) (baseDuty (entry s) s.ramp.multiplier) (fbUsed s)
      { s with fbDly := line, fbZeroCount := zeros }) : Computes (normalResult s) p.1 p.2 := by
  subst hp
  obtain ⟨-, hn, -⟩ := valid_bounds hv
  unfold normalDuty
  extract_lets err s2 raw pid2 s3
  obtain ⟨hft, hprev, hsaved, hsum⟩ := integrate_closeFlatTop hv line zeros (err := err) (t := s2) rfl
  have herr : err.toInt = _ := pidError_toInt hv (fbUsed s)
  rw [fbUsed_toInt] at herr
  have hcfg : s2.cfg = s.cfg := by simp [s2]
  have hseq : s2.seq = s.seq := by simp [s2]
  have hraw : raw.toInt = _ := rawDuty_toInt _ err s2
  rw [hcfg, hprev, show s2.safe = s.safe by simp [s2]] at hraw
  have hft3 : s3.flatTop = _ := openFlatTop_flatTop raw _
  have hpid3 : s3.pid = _ := openFlatTop_pid raw _
  have hcfg3 : s3.cfg = s.cfg := by simp [s3, hcfg]
  have hduty : (((reduceDuty (chooseDuty raw s3) s3).toNat : Nat) : Int) = _ := reduceDuty_toNat _ s3
  rw [chooseDuty_toNat (hcfg3 ▸ hv) raw, hcfg3, hft3, show s3.satDet = s.satDet by simp [s3, s2],
    show s3.seq = s.seq by simp [s3, hseq]] at hduty
  simp only [opening, hft, hcfg, hseq] at hft3 hpid3 hduty
  rw [normalResult_eq herr hsum hraw rfl]
  generalize (!stillOpen s && decide ((s.cfg.maxDuty.toNat : Int) < raw.toInt)
      && decide (s.seq.idx.toNat ≤ s.cfg.n / 2)) = opens at *
  constructor
  case integral => rw [hpid3]; exact apply_ite BitVec.toInt ..
  case prevError => rw [hpid3]
  case saved => rw [hpid3, ← hsaved]; exact apply_ite BitVec.toInt ..
  case active => rw [hft3]
  case endIdx =>
    rw [hft3]
    refine (apply_ite BitVec.toNat ..).trans ?_
    rw [satU16_of_mem (by omega) (by omega)]
    congr 1
    omega
  case duty => exact hduty

/-! ### The tick of NORMAL whose test passes -/

theorem computes_computed {s : State} (hv : s.cfg.valid = true) (h : EngInv s) (he : s.seq.engState = .normal)
    (hshort : ¬ shortedNow s) : Computes (normalResult s) (computed (entry s) s).1 (computed (entry s) s).2 := by
  have hrev := not_reversedNow (s := s) (by simp [he])
  have hdone := testsDone_tested h
  have hstate := stateAfterTests_pass hdone.state hrev hshort
  refine computes_normalDuty hv h.idx_lt.le (shiftFeedback s).fbDly (tested s).fbZeroCount ?_
  rw [computed, tickDuty, if_pos (hstate.trans he)]
  congr 1
  refine (tested_frame s).trans ?_
  rw [hstate, flagsAfterTests_pass hdone.flags hrev hshort]

/-- A tick of NORMAL inside a half-cycle whose near-zero test passes, with the duty that it computes. -/
theorem closedLoop_tick {s : State} (hs : ticking s) (he : s.seq.engState = .normal) (hshort : ¬ shortedNow s)
    (hn : s.seq.idx.toNat + 1 < s.cfg.n) :
    ∃ t d, exec .none s = .next t ∧ Computes (normalResult s) t d ∧ driven s t d.toNat ∧ lined s t ∧
      t.seq = ⟨.normal, s.seq.phase, s.seq.idx + 1⟩ ∧ t.fbZeroCount.toNat = zeroCountNow s ∧
      t.rebal.dutyAcc.toNat = dutySum s t ∧ t.satDet.satAcc.toNat = tailSum s ∧
      t = { s with
        seq := t.seq, drive := t.drive, ovl := t.ovl, fbDly := t.fbDly, pid := t.pid, flatTop := t.flatTop
        fbZeroCount := t.fbZeroCount
        rebal.dutyAcc := t.rebal.dutyAcc
        satDet.satAcc := t.satDet.satAcc
        pulses.halfCycle := false, pulses.fullCycle := false } := by
  obtain ⟨hv, hb, -, -⟩ := ticking_beginTick hs
  have hrev := not_reversedNow (s := s) (by simp [he])
  have hdone := testsDone_tested hb
  have hstate := stateAfterTests_pass hdone.state hrev hshort
  have hflags := flagsAfterTests_pass hdone.flags hrev hshort
  obtain ⟨hint, hprev, hsaved, hactive, hend, hduty⟩ := computes_computed hv hb he hshort
  refine ⟨_, (computed (entry s) (beginTick s)).2, execNone_of_ticking hs, ?_⟩
  rw [advance_preAdvance_inside (s := beginTick s) hv hn]
  refine ⟨⟨?_, ?_, ?_, ?_, ?_, hduty⟩, driven_preAdvance (entry s) (beginTick s),
    lined_shiftFeedback (s := beginTick s) hb.line_length (by simp), ?_, ?_, preAdvance_dutyAcc hv hb _,
    preAdvance_satAcc hv hb _, ?_⟩
  · rw [preAdvance_pid]; exact hint
  · rw [preAdvance_pid]; exact hprev
  · rw [preAdvance_pid]; exact hsaved
  · rw [preAdvance_flatTop]; exact hactive
  · rw [preAdvance_flatTop]; exact hend
  · rw [hstate, beginTick_seq, he]
  · rw [preAdvance_fbZeroCount]; exact hdone.zero
  · exact state_eq_iff.2 (by simp [hflags, preAdvance_rebal, preAdvance_satDet])

/-- Settles O25: START is applied, and its tick is the closed-loop tick of index 0. -/
theorem startEntersNormalDirectly : Obligations.StartEntersNormalDirectly := by
  intro s hv hs he hrev hshort hshut
  have hok := (startAllowed_iff s).2 ⟨hrev, hshort, hshut⟩
  have hstarted := started_of_idle hs he .start
  have hticking := ticking_started hv hs he hok .start
  obtain ⟨hn, -⟩ := valid_bounds hv
  have hpass : ¬ shortedNow (started .start s) := fun h => not_atPeak_of_first hticking.1 rfl h.2.1
  obtain ⟨t, d, ht, hcomp, hdriven, hlined, hseq, hzero, hduty, htail, hframe⟩ :=
    closedLoop_tick hticking rfl hpass hn
  obtain ⟨hacc, hsat⟩ := firstSums hticking.2.1 rfl hduty htail
  have hzeros : t.fbZeroCount = s.fbZeroCount := BitVec.eq_of_toNat_eq <| by
    rw [hzero, zeroCountNow, if_neg fun h => not_atPeak_of_first hticking.1 rfl h.2, hstarted]
  obtain ⟨hint, hprev, hsaved, hactive, hend, hd⟩ := hcomp
  rw [hd] at hdriven
  rw [hstarted] at hframe hdriven hlined hint hprev hsaved hactive hend
  have hsafe : t.safe = ⟨s.safe.safeCyclesLeft != 0, s.safe.safeCyclesLeft⟩ := congrArg State.safe hframe
  have hramp := congrArg State.ramp hframe
  have hinc : t.ramp.rampInc = startRampInc s.cfg s.ports.vbattAvg .start := congrArg RampState.rampInc hramp
  have hlatch : t.cmdLatch = 0 := congrArg State.cmdLatch hframe
  refine ⟨t, startMultiplier s.cfg s.ports.vbattAvg .start, (commandTick_acceptStart he hok .start).trans ht,
    hlatch, hseq, scaleByVBatt_toNat .., by rw [hinc]; exact startRampInc_toNat .., by rw [hinc]; exact hramp,
    hsafe, ?_, hlined, hframe.trans ?_⟩
  · rw [hsafe]
    exact ⟨hdriven, hint, hprev, hsaved, hactive, hend⟩
  · rw [hlatch, hzeros, hacc, hsat, hramp, hsafe]
    rfl

end Sys2Proof.Proofs
end

section
/-! PROOF. The ramps at the half-cycle boundary and the transitions of `eng_state` (obligations O34, O51). -/

namespace Sys2Proof.Proofs

open Sys2Proof Sys2Proof.Machine Sys2Proof.Laws Sys2Proof.Claims

/-! ### The boundary, state by state -/

theorem boundary_normal {q : State} (he : q.seq.engState = .normal) :
    boundary q = closeCycle true (boundaryCommon q) := by
  unfold boundary
  rw [he]

/-- Outside NORMAL the end of a full cycle is only pulsed. -/
theorem closeCycle_safe {q : State} (he : q.seq.engState ≠ .normal) (b : Bool) : (closeCycle b q).safe = q.safe := by
  by_cases hp : q.seq.phase = .positive
  · rw [closeCycle, if_pos hp, if_neg he]
  · rw [closeCycle, if_neg hp]

/-- A full cycle that was not NORMAL's selects the gain and leaves the safe window's count (43_pid_corrector.md
R242). -/
theorem fullCycleActions_safe (q : State) :
    (fullCycleActions false q).safe = ⟨q.safe.safeCyclesLeft != 0, q.safe.safeCyclesLeft⟩ := by
  show (if (selectGain q).ramp.normHalves.toNat = 2 then saturationDetect (rebalance (selectGain q))
    else satIdle (selectGain q)).safe = _
  split
  · rw [saturationDetect_safe, rebalance_safe]; rfl
  · rfl

theorem closeCycle_safe_of_selected {q : State} (h : q.safe.kiSafeSel = (q.safe.safeCyclesLeft != 0)) :
    (closeCycle false q).safe = q.safe := by
  unfold closeCycle
  split
  · split
    · rw [fullCycleActions_safe, ← h]
    · rfl
  · rfl

/-- The soft start at a boundary (40_engine_commands.md R160). -/
theorem boundary_softStart {q : State} (he : q.seq.engState = .softStart) (hover : q.ramp.hcOver = 0)
    (hlt : q.ramp.hcCount.toNat < 65535) :
    (boundary q).ramp.rampInc = q.ramp.rampInc ∧
    (boundary q).ramp.hcCount.toNat = q.ramp.hcCount.toNat + 1 ∧ (boundary q).ramp.hcOver = 0 ∧
    if q.cfg.softStartCycles.toNat ≤ q.ramp.hcCount.toNat + 1 then
      (boundary q).seq.engState = .normal ∧
      (boundary q).ramp.multiplier = scaleByVBatt q.cfg q.cfg.softStartMaxDuty q.ports.vbattAvg ∧
      (boundary q).safe = ⟨q.safe.safeCyclesLeft != 0, q.safe.safeCyclesLeft⟩
    else (boundary q).seq.engState = .softStart ∧ (boundary q).safe = q.safe ∧
      (boundary q).ramp.multiplier = rampUp q := by
  have hb : boundary q = closeCycle false (softStartBoundary (boundaryCommon q)) := by
    unfold boundary
    rw [he]
  have hcount : (countHalf q.ramp).hcCount.toNat = q.ramp.hcCount.toNat + 1 := incU16_of_lt hlt
  have hover' : (countHalf q.ramp).hcOver = 0 := by
    unfold countHalf
    rw [if_neg (by omega), hover]
  have hdone : halvesDone (countHalf (boundaryCommon q).ramp) = q.ramp.hcCount.toNat + 1 := by
    show (countHalf q.ramp).hcCount.toNat + (countHalf q.ramp).hcOver.toNat = _
    rw [hcount, hover']
    rfl
  rw [hb, closeCycle_ramp, closeCycle_seq]
  unfold softStartBoundary
  rw [hdone, boundaryCommon_cfg]
  split_ifs
  · exact ⟨rfl, hcount, hover', rfl, rfl, closeCycle_safe_of_selected rfl⟩
  · exact ⟨rfl, hcount, hover', he, closeCycle_safe (by simp [boundaryCommon, he]) false, rfl⟩

/-- The multiplier of the next half-cycle of a ping, `done` half-cycles being over (40 R163). -/
def nextPingMultiplier (u done : Nat) (r : RampState) : Nat :=
  if done < u then min 65535 (r.multiplier.toNat + r.rampInc.toNat)
  else if u < done then r.multiplier.toNat - r.rampInc.toNat
  else r.multiplier.toNat

/-- A ping at a boundary (40 R163). -/
theorem boundary_ping {q : State} (he : q.seq.engState = .ping) (hlt : halvesDone q.ramp < 131070) :
    if 2 * q.cfg.pingRampHc.toNat ≤ halvesDone q.ramp + 1 then
      ∃ r, boundary q = endRun { boundaryCommon q with ramp := r }
    else ∃ m : U16,
      boundary q = closeCycle false
        { boundaryCommon q with ramp := { countHalf (boundaryCommon q).ramp with multiplier := m } } ∧
      m.toNat = nextPingMultiplier q.cfg.pingRampHc.toNat (halvesDone q.ramp + 1) q.ramp := by
  have hb : boundary q = pingBoundary (boundaryCommon q) := by
    unfold boundary
    rw [he]
  have hdone : halvesDone (countHalf (boundaryCommon q).ramp) = halvesDone q.ramp + 1 := halvesDone_countHalf hlt
  rw [hb, nextPingMultiplier]
  unfold pingBoundary
  dsimp only
  rw [hdone, boundaryCommon_cfg]
  split_ifs with hend hup hdown
  · exact ⟨_, rfl⟩
  · exact ⟨_, rfl, rampUp_toNat _⟩
  · exact ⟨_, rfl, rampDown_toNat _⟩
  · exact ⟨_, rfl, rfl⟩

/-- The ramp-down at a boundary (40 R165). -/
theorem boundary_softStop {q : State} (he : q.seq.engState = .softStop) :
    if q.ramp.multiplier.toNat ≤ q.ramp.rampInc.toNat then
      ∃ r, boundary q = endRun { boundaryCommon q with ramp := r }
    else ∃ m : U16,
      boundary q = closeCycle false { boundaryCommon q with ramp.multiplier := m } ∧
      m.toNat = q.ramp.multiplier.toNat - q.ramp.rampInc.toNat := by
  have hb : boundary q = softStopBoundary (boundaryCommon q) := by
    unfold boundary
    rw [he]
  have hdown : (rampDown (boundaryCommon q)).toNat = q.ramp.multiplier.toNat - q.ramp.rampInc.toNat :=
    rampDown_toNat _
  have hzero : rampDown (boundaryCommon q) = 0 ↔ q.ramp.multiplier.toNat ≤ q.ramp.rampInc.toNat := by
    rw [← toNat_eq_zero_iff, hdown, Nat.sub_eq_zero_iff_le]
  rw [hb]
  unfold softStopBoundary
  simp only [hzero]
  split_ifs
  · exact ⟨_, rfl⟩
  · exact ⟨_, rfl, hdown⟩

/-- The end of a run leaves what `idle_entry()` leaves of the tick (40 R141, 70_reset_and_hazards.md R451). -/
theorem endedInIdle_endRun (x : U32) (s : State) (r : RampState) :
    endedInIdle s (endRun { boundaryCommon (preAdvance x (beginTick s)) with ramp := r }) := by
  have hline : (shiftFeedback (beginTick s)).fbDly.length = s.fbDly.length := by
    rw [shiftFeedback_line]
    simp
  have hovl : (preAdvance x (beginTick s)).ovl = skipCounted s := preAdvance_ovl x (beginTick s)
  refine state_eq_iff.2 ?_
  simp [endRun, idleEntry, driveOff, pidPhaseClear, boundaryCommon, hline, hovl, preAdvance_rebal]

/-! ### The tick at the boundary -/

/-- The tick of the last index is the boundary of what its tests and its duty leave. -/
theorem execNone_boundary {s t : State} (hs : ticking s) (hn : s.seq.idx.toNat + 1 = s.cfg.n)
    (ht : exec .none s = .next t) : t = boundary (preAdvance (entry s) (beginTick s)) := by
  rw [execNone_of_ticking hs, advance_boundary (by simpa using hn)] at ht
  cases ht
  rfl

/-- The tick inside a half-cycle moves to the next index in the state that its tests leave. -/
theorem execNone_inside {s t : State} (hs : ticking s) (hn : s.seq.idx.toNat + 1 < s.cfg.n)
    (ht : exec .none s = .next t) : t =
      { preAdvance (entry s) (beginTick s) with
        seq := ⟨(tested (beginTick s)).seq.engState, s.seq.phase, s.seq.idx + 1⟩ } := by
  rw [execNone_of_ticking hs, advance_preAdvance_inside (s := beginTick s) hs.1 hn] at ht
  cases ht
  rfl

theorem endedInIdle_engState {s t : State} (h : endedInIdle s t) : t.seq.engState = .idle := by
  rw [h]

/-- Half-cycles of a soft start are never counted beside `hc_count` (notes/assumptions/12.md). -/
theorem softStart_hcOver {s : State} (h : EngInv s) (he : s.seq.engState = .softStart) :
    s.ramp.hcOver = 0 ∧ s.ramp.hcCount.toNat < 65535 := by
  have hlt := h.soft_start_count he
  have hmax := s.cfg.softStartCycles.isLt
  unfold halvesDone at hlt
  refine ⟨by_contra fun hne => ?_, by omega⟩
  have := h.count_full hne
  omega

section AtBoundary

variable {s t : State} (hs : ticking s) (hn : s.seq.idx.toNat + 1 = s.cfg.n) (ht : exec .none s = .next t)
include hs hn ht

/-- A soft start whose test passes counts the half-cycle and goes up, or hands over to NORMAL (40 R160). -/
theorem softStart_atBoundary (he : s.seq.engState = .softStart) (hrev : ¬ reversedNow s) :
    t.ramp.rampInc = s.ramp.rampInc ∧ t.ramp.hcCount.toNat = s.ramp.hcCount.toNat + 1 ∧ t.ramp.hcOver = 0 ∧
    if s.cfg.softStartCycles.toNat ≤ s.ramp.hcCount.toNat + 1 then
      t.seq.engState = .normal ∧
      t.ramp.multiplier = scaleByVBatt s.cfg s.cfg.softStartMaxDuty s.ports.vbattAvg ∧
      t.safe = ⟨s.safe.safeCyclesLeft != 0, s.safe.safeCyclesLeft⟩
    else t.seq.engState = .softStart ∧ t.safe = s.safe ∧ t.ramp.multiplier = rampUp s := by
  have hinv := engInv_beginTick hs.2.1
  have hstate := stateAfterTests_pass (testsDone_tested hinv).state hrev (not_shortedNow (by simp [he]))
  obtain ⟨hover, hlt⟩ := softStart_hcOver hinv he
  have hb := boundary_softStart (q := preAdvance (entry s) (beginTick s))
    (by rw [preAdvance_seq, hstate, beginTick_seq, he]) (by rwa [preAdvance_ramp]) (by rwa [preAdvance_ramp])
  rw [← execNone_boundary hs hn ht, rampUp, preAdvance_ramp, preAdvance_cfg, preAdvance_ports,
    preAdvance_safe] at hb
  exact hb

/-- A ping counts the half-cycle and goes up, holds or comes down, or ends (40 R163). -/
theorem ping_atBoundary (he : s.seq.engState = .ping) :
    if 2 * s.cfg.pingRampHc.toNat ≤ halvesDone s.ramp + 1 then endedInIdle s t
    else t.seq.engState = .ping ∧ t.ramp.rampInc = s.ramp.rampInc ∧
      halvesDone t.ramp = halvesDone s.ramp + 1 ∧ t.ramp.hcCount = incU16 s.ramp.hcCount ∧
      t.ramp.multiplier.toNat = nextPingMultiplier s.cfg.pingRampHc.toNat (halvesDone s.ramp + 1) s.ramp := by
  have hinv := engInv_beginTick hs.2.1
  have hstate := stateAfterTests_pass (testsDone_tested hinv).state (not_reversedNow (by simp [he]))
    (not_shortedNow (by simp [he]))
  have hping : (preAdvance (entry s) (beginTick s)).seq.engState = .ping := by
    rw [preAdvance_seq, hstate, beginTick_seq, he]
  have hlt : halvesDone s.ramp < 131070 := by
    have := hinv.ping_count he
    have := s.cfg.pingRampHc.isLt
    simp only [beginTick_ramp, beginTick_cfg] at *
    omega
  have hb := boundary_ping hping (by rwa [preAdvance_ramp])
  rw [← execNone_boundary hs hn ht] at hb
  simp only [preAdvance_ramp, preAdvance_cfg, beginTick_ramp, beginTick_cfg] at hb
  split at hb
  · next hend =>
    rw [if_pos hend]
    obtain ⟨r, rfl⟩ := hb
    exact endedInIdle_endRun _ s r
  · next hend =>
    rw [if_neg hend]
    obtain ⟨m, rfl, hm⟩ := hb
    rw [closeCycle_seq, closeCycle_ramp]
    have hramp := preAdvance_ramp (entry s) (beginTick s)
    refine ⟨hping, ?_, ?_, ?_, hm⟩
    · show (preAdvance (entry s) (beginTick s)).ramp.rampInc = _
      rw [hramp, beginTick_ramp]
    · show halvesDone (countHalf (preAdvance (entry s) (beginTick s)).ramp) = _
      rw [hramp]
      exact halvesDone_countHalf hlt
    · show incU16 (preAdvance (entry s) (beginTick s)).ramp.hcCount = _
      rw [hramp, beginTick_ramp]

/-- The ramp-down, begun in this tick or before, comes down or ends (40 R165). -/
theorem softStop_atBoundary (hstop : s.seq.engState = .softStop ∨ reversedNow s ∨ shortedNow s) :
    if s.ramp.multiplier.toNat ≤ s.ramp.rampInc.toNat then endedInIdle s t
    else t.seq.engState = .softStop ∧ t.ramp.rampInc = s.ramp.rampInc ∧ t.ramp.hcCount = s.ramp.hcCount ∧
      t.ramp.hcOver = s.ramp.hcOver ∧ t.ramp.multiplier.toNat = s.ramp.multiplier.toNat - s.ramp.rampInc.toNat := by
  have hdone := testsDone_tested (engInv_beginTick hs.2.1)
  have hstate : (preAdvance (entry s) (beginTick s)).seq.engState = .softStop := by
    rw [preAdvance_seq]
    obtain he | hfail := hstop
    · rw [stateAfterTests_pass hdone.state (not_reversedNow (by simp [he])) (not_shortedNow (by simp [he])),
        beginTick_seq, he]
    · exact stateAfterTests_fail hdone.state hfail
  have hb := boundary_softStop hstate
  have hramp := preAdvance_ramp (entry s) (beginTick s)
  rw [← execNone_boundary hs hn ht, hramp, beginTick_ramp] at hb
  split at hb
  · next hend =>
    rw [if_pos hend]
    obtain ⟨r, rfl⟩ := hb
    exact endedInIdle_endRun _ s r
  · next hend =>
    rw [if_neg hend]
    obtain ⟨m, rfl, hm⟩ := hb
    rw [closeCycle_seq, closeCycle_ramp]
    refine ⟨hstate, ?_, ?_, ?_, hm⟩
    · show (preAdvance (entry s) (beginTick s)).ramp.rampInc = _
      rw [hramp, beginTick_ramp]
    · show (preAdvance (entry s) (beginTick s)).ramp.hcCount = _
      rw [hramp, beginTick_ramp]
    · show (preAdvance (entry s) (beginTick s)).ramp.hcOver = _
      rw [hramp, beginTick_ramp]

/-- NORMAL goes on, its ramp kept but for `norm_halves` (42_sine_table_lookup.md R215). -/
theorem normal_atBoundary (he : s.seq.engState = .normal) (hshort : ¬ shortedNow s) :
    t.seq.engState = .normal ∧ t.ramp.rampInc = s.ramp.rampInc := by
  have hdone := testsDone_tested (engInv_beginTick hs.2.1)
  have hstate : (preAdvance (entry s) (beginTick s)).seq.engState = .normal := by
    rw [preAdvance_seq, stateAfterTests_pass hdone.state (not_reversedNow (by simp [he])) hshort, beginTick_seq, he]
  rw [execNone_boundary hs hn ht, boundary_normal hstate, closeCycle_seq, closeCycle_ramp]
  refine ⟨hstate, ?_⟩
  show (preAdvance (entry s) (beginTick s)).ramp.rampInc = _
  rw [preAdvance_ramp, beginTick_ramp]

/-- The increment of a run lasts as long as the run. -/
theorem rampInc_atBoundary (hrun : t.seq.engState ≠ .idle) : t.ramp.rampInc = s.ramp.rampInc := by
  by_cases hstop : s.seq.engState = .softStop ∨ reversedNow s ∨ shortedNow s
  · have hdown := softStop_atBoundary hs hn ht hstop
    split at hdown
    · exact absurd (endedInIdle_engState hdown) hrun
    · exact hdown.2.1
  · obtain ⟨hsoft, hrev, hshort⟩ := not_or.1 hstop |>.imp_right not_or.1
    cases he : s.seq.engState with
    | idle => exact absurd he hs.2.2.1
    | softStart => exact (softStart_atBoundary hs hn ht he hrev).1
    | normal => exact (normal_atBoundary hs hn ht he hshort).2
    | ping =>
      have hping := ping_atBoundary hs hn ht he
      split at hping
      · exact absurd (endedInIdle_engState hping) hrun
      · exact hping.2.1
    | softStop => exact absurd he hsoft

end AtBoundary

/-- Settles O34: the boundary of each state, after the tests of the tick. -/
theorem rampsAtTheBoundary : Obligations.RampsAtTheBoundary := by
  intro s t hs hn ht
  refine ⟨fun he hrev => ?_, fun he => ?_, fun hstop => ?_, rampInc_atBoundary hs hn ht⟩
  · obtain ⟨-, hcount, hover, hnext⟩ := softStart_atBoundary hs hn ht he hrev
    refine ⟨hcount, by rw [halvesDone, hover]; rfl, ?_⟩
    split at hnext
    · next hend =>
      rw [if_pos hend]
      obtain ⟨hnormal, hmul, hsafe⟩ := hnext
      exact ⟨hnormal, by rw [hmul, scaleByVBatt_toNat], hsafe⟩
    · next hend =>
      rw [if_neg hend]
      obtain ⟨hsoft, hsafe, hmul⟩ := hnext
      exact ⟨hsoft, hsafe, by rw [hmul, rampUp_toNat]⟩
  · have hping := ping_atBoundary hs hn ht he
    split at hping
    · next hend => rw [if_pos hend]; exact hping
    · next hend =>
      rw [if_neg hend]
      obtain ⟨hgoes, -, hhalves, hcount, hmul⟩ := hping
      exact ⟨hgoes, hhalves, by rw [hcount, incU16_toNat, min_comm], hmul⟩
  · have hdown := softStop_atBoundary hs hn ht hstop
    split at hdown
    · next hend => rw [if_pos hend]; exact hdown
    · next hend =>
      rw [if_neg hend]
      obtain ⟨hgoes, -, hcount, hover, hmul⟩ := hdown
      exact ⟨hgoes, hcount, by rw [halvesDone, halvesDone, hcount, hover], hmul⟩

/-! ### The transition table (40 R170) -/

/-- The rows of the transition table that a tick takes without a command: a failed self-test, or at a half-cycle
boundary the end of a soft start, a ping or a ramp-down. -/
def TickRow (s t : State) : Prop :=
  (s.seq.engState = .softStart ∧ t.seq.engState = .softStop ∧ reversedNow s ∧ t.flags.feedbackReversed = true) ∨
  (s.seq.engState = .normal ∧ t.seq.engState = .softStop ∧ shortedNow s ∧ t.flags.outputShorted = true) ∨
  (s.seq.engState = .softStart ∧ t.seq.engState = .normal ∧ s.seq.idx.toNat + 1 = s.cfg.n ∧
    s.cfg.softStartCycles.toNat ≤ halvesDone s.ramp + 1) ∨
  (s.seq.engState = .ping ∧ t.seq.engState = .idle ∧ s.seq.idx.toNat + 1 = s.cfg.n ∧
    2 * s.cfg.pingRampHc.toNat ≤ halvesDone s.ramp + 1) ∨
  (s.seq.engState ≠ .idle ∧ t.seq.engState = .idle ∧ s.seq.idx.toNat + 1 = s.cfg.n ∧
    s.ramp.multiplier.toNat ≤ s.ramp.rampInc.toNat ∧
    (s.seq.engState = .softStop ∨ reversedNow s ∨ shortedNow s))

/-- A tick leaves in the flags what its tests leave there. -/
theorem execNone_flags {s t : State} (hs : ticking s) (ht : exec .none s = .next t) : flagsAfterTests s t := by
  have hdone := testsDone_tested (engInv_beginTick hs.2.1)
  rw [execNone_of_ticking hs] at ht
  cases ht
  exact hdone.flags_of (by simp)

/-- A tick that goes on in SOFT_STOP because its test has failed. -/
theorem tickRow_of_fail {s t : State} (hs : ticking s) (ht : exec .none s = .next t)
    (hfail : reversedNow s ∨ shortedNow s) (he : t.seq.engState = .softStop) : TickRow s t := by
  obtain ⟨hrev, hshort⟩ := execNone_flags hs ht
  obtain hnow | hnow := hfail
  · exact .inl ⟨hnow.1, he, hnow, hrev.2 (.inr hnow)⟩
  · exact .inr (.inl ⟨hnow.1, he, hnow, hshort.2 (.inr hnow)⟩)

theorem execNone_engState_inside {s t : State} (hs : ticking s) (hn : s.seq.idx.toNat + 1 < s.cfg.n)
    (ht : exec .none s = .next t) : stateAfterTests s t.seq.engState := by
  rw [execNone_inside hs hn ht]
  exact (testsDone_tested (engInv_beginTick hs.2.1)).state

/-- A tick at the last index changes the state as its row says. -/
theorem tickRow_atBoundary {s t : State} (hs : ticking s) (hn : s.seq.idx.toNat + 1 = s.cfg.n)
    (ht : exec .none s = .next t) (hne : t.seq.engState ≠ s.seq.engState) : TickRow s t := by
  by_cases hstop : s.seq.engState = .softStop ∨ reversedNow s ∨ shortedNow s
  · have hdown := softStop_atBoundary hs hn ht hstop
    split at hdown
    · next hend => exact .inr (.inr (.inr (.inr ⟨hs.2.2.1, endedInIdle_engState hdown, hn, hend, hstop⟩)))
    · exact tickRow_of_fail hs ht (hstop.resolve_left fun he => hne (hdown.1.trans he.symm)) hdown.1
  · obtain ⟨hsoft, hrev, hshort⟩ := not_or.1 hstop |>.imp_right not_or.1
    cases he : s.seq.engState with
    | idle => exact absurd he hs.2.2.1
    | softStart =>
      obtain ⟨-, -, -, hnext⟩ := softStart_atBoundary hs hn ht he hrev
      split at hnext
      · next hend =>
        have hhalves : s.ramp.hcCount.toNat ≤ halvesDone s.ramp := Nat.le_add_right ..
        exact .inr (.inr (.inl ⟨he, hnext.1, hn, by omega⟩))
      · exact absurd (hnext.1.trans he.symm) hne
    | normal => exact absurd ((normal_atBoundary hs hn ht he hshort).1.trans he.symm) hne
    | ping =>
      have hping := ping_atBoundary hs hn ht he
      split at hping
      · next hend => exact .inr (.inr (.inr (.inl ⟨he, endedInIdle_engState hping, hn, hend⟩)))
      · exact absurd (hping.1.trans he.symm) hne
    | softStop => exact absurd he hsoft

theorem tickRow_of_change {s t : State} (hs : ticking s) (ht : exec .none s = .next t)
    (hne : t.seq.engState ≠ s.seq.engState) : TickRow s t := by
  have hidx := hs.2.1.idx_lt
  by_cases hn : s.seq.idx.toNat + 1 = s.cfg.n
  · exact tickRow_atBoundary hs hn ht hne
  · obtain ⟨hfail, he⟩ | ⟨-, -, he⟩ := execNone_engState_inside hs (by omega) ht
    · exact tickRow_of_fail hs ht hfail he
    · exact absurd he hne

/-- NONE changes the state of the engine by a row of its own only. -/
theorem execNone_change {s t : State} (hv : s.cfg.valid = true) (hs : EngInv s) (hforce : unforced s)
    (ht : exec .none s = .next t) (hne : t.seq.engState ≠ s.seq.engState) : TickRow s t := by
  by_cases he : s.seq.engState = .idle
  · rw [execNone_of_idle he] at ht
    cases ht
    exact absurd rfl hne
  · exact tickRow_of_change ⟨hv, hs, he, fun hshut => hforce ⟨hshut, he⟩⟩ ht hne

/-- The tick of index 0 has no test and no boundary. -/
theorem execNone_engState_first {s t : State} (hs : ticking s) (hidx : s.seq.idx = 0)
    (ht : exec .none s = .next t) : t.seq.engState = s.seq.engState := by
  have hpeak := not_atPeak_of_first hs.1 hidx
  obtain ⟨hn, -⟩ := valid_bounds hs.1
  exact stateAfterTests_pass (execNone_engState_inside hs (by rw [hidx]; exact hn) ht) (fun h => hpeak h.2.1)
    fun h => hpeak h.2.1

/-! ### The commands -/

/-- The instruction of each start. -/
def startInstr : StartCmd → Instr
  | .softStart => .softStart
  | .start => .start
  | .ping => .ping

theorem acceptStart_cases (k : StartCmd) (s : State) :
    acceptStart k s = s ∨ acceptStart k s = emptyLatch s ∨
    (s.seq.engState = .idle ∧ startAllowed s = true ∧ acceptStart k s = started k s) := by
  unfold acceptStart
  split
  · next he =>
    split
    · next hok => exact .inr (.inr ⟨he, hok, rfl⟩)
    · exact .inr (.inl rfl)
  · split
    · exact .inr (.inl rfl)
    · exact .inl rfl
  · exact .inl rfl

theorem acceptSoftStop_cases (s : State) :
    acceptSoftStop s = s ∨ acceptSoftStop s = emptyLatch s ∨
    (s.seq.engState = .normal ∧ s.seq.phase = .positive ∧ s.seq.idx = 0 ∧ acceptSoftStop s = stopping s) := by
  unfold acceptSoftStop
  split
  · exact .inr (.inl rfl)
  · next he =>
    split
    · next hstart =>
      obtain ⟨hp, hidx⟩ := (atCycleStart_iff s).1 hstart
      exact .inr (.inr ⟨he, hp, hidx, rfl⟩)
    · exact .inl rfl
  · exact .inl rfl

/-- All the ways a command can go: the clear, the forced stop, a tick of NONE with the latch kept or emptied, a
start that is applied, or a ramp-down that begins (40 R131 to R143). -/
theorem exec_command_cases {i : Instr} {s t : State} (hi : i ∈ commands) (h : exec i s = .next t) :
    ((i = .reset ∨ i = .stop) ∧ t = cleared s) ∨
    (s.ovl.state = .shutdown ∧ s.seq.engState ≠ .idle ∧ t = engineClear (beginTick s)) ∨
    (unforced s ∧ (exec .none s = .next t ∨ exec .none (emptyLatch s) = .next t)) ∨
    (∃ k, i = startInstr k ∧ s.seq.engState = .idle ∧ startAllowed s = true ∧
      exec .none (started k s) = .next t) ∨
    (i = .softStop ∧ s.seq.engState = .normal ∧ s.seq.phase = .positive ∧ s.seq.idx = 0 ∧
      s.ovl.state ≠ .shutdown ∧ exec .none (stopping s) = .next t) := by
  by_cases hclear : i = .reset ∨ i = .stop
  · refine .inl ⟨hclear, ?_⟩
    obtain rfl | rfl := hclear <;> cases h <;> rfl
  refine .inr ?_
  by_cases hforce : s.ovl.state = .shutdown ∧ s.seq.engState ≠ .idle
  · obtain ⟨f, hf⟩ := exec_eq_commandTick hi (fun e => hclear (.inl e)) (fun e => hclear (.inr e))
    rw [hf, commandTick, if_pos hforce] at h
    cases h
    exact .inl ⟨hforce.1, hforce.2, rfl⟩
  refine .inr ?_
  have hstart (k : StartCmd) (h : commandTick (acceptStart k) s = .next t) :
      (unforced s ∧ (exec .none s = .next t ∨ exec .none (emptyLatch s) = .next t)) ∨
      (s.seq.engState = .idle ∧ startAllowed s = true ∧ exec .none (started k s) = .next t) := by
    obtain hk | hk | ⟨he, hok, -⟩ := acceptStart_cases k (beginTick s)
    · exact .inl ⟨hforce, .inl (commandTick_of_waiting hk ▸ h)⟩
    · exact .inl ⟨hforce, .inr (commandTick_eq_execNone (u := emptyLatch s) hforce hforce hk ▸ h)⟩
    · exact .inr ⟨he, hok, commandTick_acceptStart he hok k ▸ h⟩
  cases i, (mem_commands i).1 hi using cmd8_cases with
  | none => exact .inl ⟨hforce, .inl h⟩
  | reset => exact absurd (.inl rfl) hclear
  | stop => exact absurd (.inr rfl) hclear
  | softStart => exact (hstart .softStart h).imp_right fun hk => .inl ⟨.softStart, rfl, hk⟩
  | start => exact (hstart .start h).imp_right fun hk => .inl ⟨.start, rfl, hk⟩
  | ping => exact (hstart .ping h).imp_right fun hk => .inl ⟨.ping, rfl, hk⟩
  | softStop =>
    obtain hk | hk | ⟨he, hp, hidx, hk⟩ := acceptSoftStop_cases (beginTick s)
    · exact .inl ⟨hforce, .inl ((commandTick_of_waiting hk).symm.trans h)⟩
    · exact .inl ⟨hforce, .inr ((commandTick_eq_execNone (u := emptyLatch s) hforce hforce hk).symm.trans h)⟩
    · have hshut : s.ovl.state ≠ .shutdown := fun hs => hforce ⟨hs, by rw [show s.seq.engState = _ from he]; nofun⟩
      exact .inr (.inr ⟨rfl, he, hp, hidx, hshut,
        (commandTick_eq_execNone (u := stopping s) hforce (fun h => hshut h.1) hk).symm.trans h⟩)

/-- The latch byte of a fetched command (40 R150 step A). -/
theorem engTick_next {s t : State} (h : engTick s = .next t) :
    (∃ i ∈ commands, s.cmdLatch = commandByte i ∧ exec i s = .next t) ∨ exec .none (emptyLatch s) = .next t := by
  cases hd : decodeCmd s.cmdLatch with
  | ok i =>
    obtain ⟨hfmt, hbyte⟩ := (decodeCmd_eq_ok_iff _ _).1 hd
    exact .inl ⟨i, (mem_commands i).2 hfmt, hbyte.symm, engTick_command hd ▸ h⟩
  | error e => exact .inr (engTick_reserved hd ▸ h)

theorem ticking_stopping {s : State} (hv : s.cfg.valid = true) (hs : EngInv s) (he : s.seq.engState = .normal)
    (hp : s.seq.phase = .positive) (hidx : s.seq.idx = 0) (hshut : s.ovl.state ≠ .shutdown) :
    ticking (stopping s) := by
  have hstop := engInv_acceptSoftStop hs
  rw [acceptSoftStop_of_cycleStart he hp hidx] at hstop
  exact ⟨hv, hstop, nofun, hshut⟩

theorem engInv_sampled {s : State} (h : EngInv s) (p : EngIn) (rest : List Event) : EngInv (sampled p rest s) :=
  engInv_of_sameEngine h (by constructor <;> rfl) (.inl rfl) id

/-- The rows that a tick takes by its command, and those it takes without one. -/
def TableRow (s t : State) : Prop :=
  (t.seq.engState = .idle ∧ (s.cmdLatch = 0x01 ∨ s.cmdLatch = 0x06)) ∨
  (t.seq.engState = .idle ∧ s.ovl.state = .shutdown) ∨
  (s.seq.engState = .idle ∧
    (s.flags.feedbackReversed = false ∧ s.flags.outputShorted = false ∧ s.ovl.state ≠ .shutdown) ∧
    ((t.seq.engState = .softStart ∧ s.cmdLatch = 0x02) ∨ (t.seq.engState = .normal ∧ s.cmdLatch = 0x03) ∨
      (t.seq.engState = .ping ∧ s.cmdLatch = 0x04))) ∨
  (s.seq.engState = .normal ∧ t.seq.engState = .softStop ∧ s.cmdLatch = 0x05 ∧ s.seq.phase = .positive ∧
    s.seq.idx = 0) ∨
  TickRow s t

/-- A tick of NONE with the latch kept or emptied. -/
theorem tableRow_of_execNone {s t : State} (hv : s.cfg.valid = true) (hs : EngInv s)
    (hne : t.seq.engState ≠ s.seq.engState) (ht : exec .none s = .next t ∨ exec .none (emptyLatch s) = .next t) :
    TableRow s t := by
  by_cases hforce : s.ovl.state = .shutdown ∧ s.seq.engState ≠ .idle
  · have hforced (u : State) (hu : u.ovl.state = .shutdown ∧ u.seq.engState ≠ .idle)
        (h : exec .none u = .next t) : t.seq.engState = .idle := by
      change commandTick (fun v => v) u = _ at h
      rw [commandTick, if_pos hu] at h
      cases h
      rfl
    exact .inr (.inl ⟨ht.elim (hforced s hforce) (hforced (emptyLatch s) hforce), hforce.1⟩)
  · refine .inr (.inr (.inr (.inr ?_)))
    obtain ht | ht := ht
    · exact execNone_change hv hs hforce ht hne
    · exact execNone_change (s := emptyLatch s) hv (engInv_emptyLatch hs) hforce ht hne

theorem tableRow_of_engTick {s t : State} (hv : s.cfg.valid = true) (hs : EngInv s) (h : engTick s = .next t)
    (hne : t.seq.engState ≠ s.seq.engState) : TableRow s t := by
  obtain ⟨i, hi, hlatch, hexec⟩ | hexec := engTick_next h
  · obtain ⟨hclear, rfl⟩ | ⟨hshut, -, rfl⟩ | ⟨-, ht⟩ | ⟨k, rfl, he, hok, ht⟩ |
      ⟨rfl, he, hp, hidx, hshut, ht⟩ := exec_command_cases hi hexec
    · refine .inl ⟨rfl, ?_⟩
      obtain rfl | rfl := hclear
      · exact .inl hlatch
      · exact .inr hlatch
    · exact .inr (.inl ⟨rfl, hshut⟩)
    · exact tableRow_of_execNone hv hs hne ht
    · have hstate : t.seq.engState = startTarget k :=
        execNone_engState_first (ticking_started hv hs he hok k) rfl ht
      refine .inr (.inr (.inl ⟨he, (startAllowed_iff s).1 hok, ?_⟩))
      cases k with
      | softStart => exact .inl ⟨hstate, hlatch⟩
      | start => exact .inr (.inl ⟨hstate, hlatch⟩)
      | ping => exact .inr (.inr ⟨hstate, hlatch⟩)
    · have hstate : t.seq.engState = .softStop :=
        execNone_engState_first (ticking_stopping hv hs he hp hidx hshut) hidx ht
      exact .inr (.inr (.inr (.inl ⟨he, hstate, hlatch, hp, hidx⟩)))
  · exact tableRow_of_execNone hv hs hne (.inr hexec)

/-- Settles O51: the ways of a command, and the rows of a tick without one. -/
theorem engineTransitions : Obligations.EngineTransitions := by
  intro s t p rest hs hstep hne
  have hv : s.cfg.valid = true := valid_of_step (s := withEvents s (p.event :: rest)) hstep
  rw [step_engTick (s := withEvents s (p.event :: rest)) hv rfl] at hstep
  have hrow : TableRow (sampled p rest s) t := tableRow_of_engTick hv (engInv_sampled hs p rest) hstep hne
  exact hrow

end Sys2Proof.Proofs
end

section
/-! PROOF. Runs of engine ticks: the clear, the cold start, the ramp-down and the ping (obligations O58, O59,
O60). -/

namespace Sys2Proof.Proofs

open Sys2Proof Sys2Proof.Machine Sys2Proof.Laws Sys2Proof.Claims

/-! ### Runs -/

theorem run_succ {M : Host.Core} {k : Nat} {s t : M.State} (h : M.step s = .next t) :
    M.run (k + 1) s = M.run k t := by
  rw [Host.Core.run, h]

theorem run_add {M : Host.Core} {j k : Nat} {s t : M.State} (h : M.run j s = .next t) :
    M.run (j + k) s = M.run k t := by
  induction j generalizing s with
  | zero =>
    cases h
    rw [Nat.zero_add]
  | succ j ih =>
    rw [Host.Core.run] at h
    rw [Nat.add_right_comm]
    split at h
    · next u hu => exact (run_succ hu).trans (ih h)
    · cases h
    · cases h

/-! ### Ticks without a command -/

/-- What ticks with an empty latch keep of the configuration `c`, apart from what a tick computes. -/
structure Quiet (c : Cfg) (s : State) : Prop where
  cfg : s.cfg = c
  valid : s.cfg.valid = true
  inv : EngInv s
  latch : s.cmdLatch = 0
  shutdown : s.ovl.state ≠ .shutdown

theorem Quiet.ticking {c : Cfg} {s : State} (h : Quiet c s) (he : s.seq.engState ≠ .idle) : ticking s :=
  ⟨h.valid, h.inv, he, h.shutdown⟩

theorem Quiet.sampled {c : Cfg} {s : State} (h : Quiet c s) (p : EngIn) (rest : List Event) :
    Quiet c (sampled p rest s) :=
  ⟨h.cfg, h.valid, engInv_sampled h.inv p rest, h.latch, h.shutdown⟩

/-- A tick of NONE completes and keeps all that. -/
theorem Quiet.execNone {c : Cfg} {s : State} (h : Quiet c s) : ∃ t, exec .none s = .next t ∧ Quiet c t := by
  obtain ⟨t, ht⟩ := engTick_completes h.valid h.inv
  have hinv := engInv_engTick h.inv h.valid ht
  rw [engTick_of_emptyLatch h.latch] at ht
  have hframe := tickFrame_exec (i := .none) rfl ht
  refine ⟨t, ht, hframe.cfg.trans h.cfg, hframe.cfg ▸ h.valid, hinv, ?_, ?_⟩
  · exact hframe.latch.elim (·.trans h.latch) id
  · obtain hovl | ⟨-, hovl⟩ := hframe.ovl <;> rw [hovl] <;> exact h.shutdown

/-- A property of the ticks done and the state that a tick of NONE hands on, inputs apart. -/
structure Counts (c : Cfg) (P : Nat → State → Prop) : Prop where
  inputs : ∀ {j s}, P j s → ∀ p rest, P j (sampled p rest s)
  tick : ∀ {j s t}, Quiet c s → P j s → exec .none s = .next t → P (j + 1) t

theorem Counts.next {c : Cfg} {P : Nat → State → Prop} (hP : Counts c P) {j : Nat} {s : State} (hq : Quiet c s)
    (hs : P j s) {p : EngIn} {rest : List Event} (he : s.events = p.event :: rest) :
    ∃ t, step s = .next t ∧ Quiet c t ∧ P (j + 1) t ∧ t.events = rest := by
  have hu := hq.sampled p rest
  obtain ⟨t, ht, htq⟩ := hu.execNone
  have hstep : step s = .next t := by
    rw [step_engTick hq.valid he, engTick_of_emptyLatch hu.latch, ht]
  exact ⟨t, hstep, htq, hP.tick hu (hP.inputs hs p rest) ht, by rw [events_of_step hstep, he]; rfl⟩

/-- Such a property goes through any ticks. -/
theorem Counts.run {c : Cfg} {P : Nat → State → Prop} (hP : Counts c P) {rest : List Event} (ps : List EngIn)
    {j : Nat} {s : State} (hq : Quiet c s) (hs : P j s) (he : s.events = ps.map EngIn.event ++ rest) :
    ∃ t, Sys2Proof.core.run ps.length s = .next t ∧ Quiet c t ∧ P (j + ps.length) t ∧ t.events = rest := by
  induction ps generalizing j s with
  | nil => exact ⟨s, rfl, hq, hs, he⟩
  | cons p ps ih =>
    obtain ⟨u, hu, huq, huP, hue⟩ := hP.next hq hs he
    obtain ⟨t, ht, htq, htP, hte⟩ := ih huq huP hue
    refine ⟨t, (run_succ (M := Sys2Proof.core) hu).trans ht, htq, ?_, hte⟩
    rwa [Nat.add_right_comm] at htP

/-- The step of an allowed start is the first tick of NONE in the state that the start makes. -/
theorem step_start {s : State} {k : StartCmd} (hv : s.cfg.valid = true) (he : s.seq.engState = .idle)
    (hlatch : s.cmdLatch = commandByte (startInstr k)) (hok : startAllowed s = true) (p : EngIn)
    (rest : List Event) :
    step (withEvents s (p.event :: rest)) = exec .none (started k (sampled p rest s)) := by
  have hdecode : decodeCmd (sampled p rest s).cmdLatch = .ok (startInstr k) :=
    (decodeCmd_eq_ok_iff _ _).2 ⟨by cases k <;> rfl, hlatch.symm⟩
  have hexec : exec (startInstr k) (sampled p rest s) = commandTick (acceptStart k) (sampled p rest s) := by
    cases k <;> rfl
  calc step (withEvents s (p.event :: rest))
    _ = engTick (sampled p rest s) := step_engTick (s := withEvents s (p.event :: rest)) hv rfl
    _ = exec (startInstr k) (sampled p rest s) := engTick_command hdecode
    _ = commandTick (acceptStart k) (sampled p rest s) := hexec
    _ = exec .none (started k (sampled p rest s)) := commandTick_acceptStart (s := sampled p rest s) he hok k

/-- The ticks of a run that an allowed start begins. -/
theorem Counts.run_started {c : Cfg} {P : Nat → State → Prop} (hP : Counts c P) {s : State} (k : StartCmd)
    (hc : s.cfg = c) (hv : s.cfg.valid = true) (hs : EngInv s) (he : s.seq.engState = .idle)
    (hlatch : s.cmdLatch = commandByte (startInstr k)) (hok : startAllowed s = true)
    (hfirst : ∀ p rest, P 0 (started k (sampled p rest s))) (p : EngIn) (ps : List EngIn) (rest : List Event) :
    ∃ t, Sys2Proof.core.run (ps.length + 1) (withEvents s (p.event :: (ps.map EngIn.event ++ rest))) = .next t ∧
      Quiet c t ∧ P (ps.length + 1) t ∧ t.events = rest := by
  have hstep := step_start hv he hlatch hok p (ps.map EngIn.event ++ rest)
  have hticking := ticking_started (s := sampled p (ps.map EngIn.event ++ rest) s) hv (engInv_sampled hs _ _) he hok k
  have hquiet : Quiet c (started k (sampled p (ps.map EngIn.event ++ rest) s)) :=
    ⟨hc, hv, hticking.2.1, rfl, hticking.2.2.2⟩
  obtain ⟨u, hu, huq⟩ := hquiet.execNone
  obtain ⟨t, ht, hq, hPt, hte⟩ :=
    hP.run ps huq (hP.tick hquiet (hfirst p _) hu) (events_of_step (hstep.trans hu))
  exact ⟨t, (run_succ (M := Sys2Proof.core) (hstep.trans hu)).trans ht, hq,
    by rwa [Nat.zero_add, Nat.add_comm] at hPt, hte⟩

/-! ### The ticks left -/

theorem closeCycle_idx {b : Bool} {q : State} (h : q.seq.idx = 0) : (closeCycle b q).seq.idx = 0 := by
  rw [closeCycle_seq, h]

/-- The first index follows every boundary (42_sine_table_lookup.md R215). -/
theorem boundary_idx (q : State) : (boundary q).seq.idx = 0 := by
  have hsoft : (softStartBoundary (boundaryCommon q)).seq.idx = 0 := by
    unfold softStartBoundary
    split <;> rfl
  unfold boundary
  split
  · exact closeCycle_idx hsoft
  · unfold pingBoundary
    dsimp only
    split_ifs
    · rfl
    all_goals exact closeCycle_idx rfl
  · unfold softStopBoundary
    split
    · rfl
    · exact closeCycle_idx rfl
  · exact closeCycle_idx rfl
  · exact closeCycle_idx rfl

/-- The ticks to the end of a run that has `left` of its ramp half-cycles to go. -/
def ticksLeft (left : RampState → Nat) (s : State) : Nat := left s.ramp * s.cfg.n - s.seq.idx.toNat

section TicksLeft

variable {left : RampState → Nat} {s t : State}

/-- Only the last index of the last half-cycle is one tick from the end. -/
theorem ticksLeft_eq_one_iff (hv : s.cfg.valid = true) (hs : EngInv s) (hpos : 1 ≤ left s.ramp) :
    ticksLeft left s = 1 ↔ left s.ramp = 1 ∧ s.seq.idx.toNat + 1 = s.cfg.n := by
  have hidx := hs.idx_lt
  obtain ⟨hn, -⟩ := valid_bounds hv
  obtain ⟨k, hk⟩ := Nat.exists_eq_add_of_le' hpos
  have hzero : k * s.cfg.n = 0 ↔ k = 0 := by rw [Nat.mul_eq_zero]; omega
  rw [ticksLeft, hk, Nat.add_mul]
  omega

/-- Inside a half-cycle the ramp waits and the index advances (42_sine_table_lookup.md R214). -/
theorem execNone_ramp_inside (hs : ticking s) (hn : s.seq.idx.toNat + 1 < s.cfg.n) (ht : exec .none s = .next t) :
    t.ramp = s.ramp ∧ t.seq.idx.toNat = s.seq.idx.toNat + 1 := by
  obtain ⟨-, hmax, -⟩ := valid_bounds hs.1
  rw [execNone_inside hs hn ht]
  refine ⟨(preAdvance_ramp _ _).trans (beginTick_ramp s), ?_⟩
  rw [← incU16_eq_add_one (by omega)]
  exact incU16_of_lt (by omega)

/-- A tick whose tests pass, before the last one, comes one nearer to the end. -/
theorem ticksLeft_tick (hs : ticking s) (ht : exec .none s = .next t) (hrev : ¬ reversedNow s)
    (hshort : ¬ shortedNow s) (hpos : 1 ≤ left s.ramp)
    (hboundary : s.seq.idx.toNat + 1 = s.cfg.n → left s.ramp ≠ 1 →
      t.seq.engState = s.seq.engState ∧ left t.ramp + 1 = left s.ramp)
    (hmore : ticksLeft left s ≠ 1) :
    t.seq.engState = s.seq.engState ∧ 1 ≤ left t.ramp ∧ ticksLeft left t + 1 = ticksLeft left s := by
  have hidx := hs.2.1.idx_lt
  have hcfg : t.cfg = s.cfg := (tickFrame_exec (i := .none) rfl ht).cfg
  have hlast := mt (ticksLeft_eq_one_iff hs.1 hs.2.1 hpos).2 hmore
  obtain ⟨hn, -⟩ := valid_bounds hs.1
  obtain ⟨k, hk⟩ := Nat.exists_eq_add_of_le' hpos
  by_cases hend : s.seq.idx.toNat + 1 = s.cfg.n
  · obtain ⟨hstate, hleft⟩ := hboundary hend fun h => hlast ⟨h, hend⟩
    have hzero : t.seq.idx = 0 := by rw [execNone_boundary hs hend ht]; exact boundary_idx _
    obtain ⟨k', rfl⟩ : ∃ k', k = k' + 1 := ⟨k - 1, by omega⟩
    refine ⟨hstate, by omega, ?_⟩
    rw [ticksLeft, ticksLeft, hcfg, hzero, hk, show left t.ramp = k' + 1 by omega]
    simp only [Nat.add_mul]
    have : (0 : U16).toNat = 0 := rfl
    omega
  · obtain ⟨hfail, -⟩ | ⟨-, -, hstate⟩ := execNone_engState_inside hs (by omega) ht
    · exact absurd hfail (not_or.2 ⟨hrev, hshort⟩)
    obtain ⟨hramp, hnext⟩ := execNone_ramp_inside hs (by omega) ht
    refine ⟨hstate, hramp ▸ hpos, ?_⟩
    rw [ticksLeft, ticksLeft, hcfg, hramp, hnext, hk]
    simp only [Nat.add_mul]
    omega

end TicksLeft

/-! ### Runs that end in IDLE (40 R163, R165) -/

/-- `j` ticks of a run of `total` are done: it goes on in state `e`, or it is over. -/
def RunsDown (e : EngState) (left : RampState → Nat) (total j : Nat) (s : State) : Prop :=
  (s.seq.engState = e ∧ 1 ≤ left s.ramp ∧ j + ticksLeft left s = total) ∨ (s.seq.engState = .idle ∧ total ≤ j)

theorem RunsDown.engState {e : EngState} {left : RampState → Nat} {total j : Nat} {s : State} (hs : EngInv s)
    (h : RunsDown e left total j s) :
    (j < total → s.seq.engState = e) ∧ (total ≤ j → s.seq.engState = .idle) := by
  obtain ⟨he, hpos, hsum⟩ | ⟨he, hover⟩ := h
  · refine ⟨fun _ => he, fun hle => absurd (hs.idx_lt) ?_⟩
    have hmul : s.cfg.n ≤ left s.ramp * s.cfg.n := Nat.le_mul_of_pos_left _ hpos
    unfold ticksLeft at hsum
    omega
  · exact ⟨fun hlt => absurd hover (by omega), fun _ => he⟩

/-- A run in which no test is due and whose boundaries count the half-cycles left down, the last one leading to
IDLE, lasts the ticks left. -/
theorem counts_runsDown {c : Cfg} {e : EngState} {left : RampState → Nat} {total : Nat}
    (hidle : e ≠ .idle) (hsoft : e ≠ .softStart) (hnormal : e ≠ .normal)
    (hboundary : ∀ {s t}, Quiet c s → s.seq.engState = e → s.seq.idx.toNat + 1 = s.cfg.n → exec .none s = .next t →
      if left s.ramp = 1 then t.seq.engState = .idle
      else t.seq.engState = e ∧ left t.ramp + 1 = left s.ramp) :
    Counts c (RunsDown e left total) where
  inputs h _ _ := h
  tick {j s t} hq h ht := by
    obtain ⟨he, hpos, hsum⟩ | ⟨he, hover⟩ := h
    · have hs : ticking s := hq.ticking (he ▸ hidle)
      by_cases hlast : ticksLeft left s = 1
      · obtain ⟨hone, hend⟩ := (ticksLeft_eq_one_iff hq.valid hq.inv hpos).1 hlast
        have hover := hboundary hq he hend ht
        rw [if_pos hone] at hover
        exact .inr ⟨hover, by omega⟩
      · obtain ⟨hstate, hpos', hless⟩ := ticksLeft_tick (left := left) hs ht
          (not_reversedNow (he ▸ hsoft)) (not_shortedNow (he ▸ hnormal)) hpos
          (fun hend hmore => by
            have hnext := hboundary hq he hend ht
            rw [if_neg hmore] at hnext
            exact ⟨hnext.1.trans he.symm, hnext.2⟩) hlast
        exact .inl ⟨hstate.trans he, hpos', by omega⟩
    · rw [execNone_of_idle he] at ht
      cases ht
      exact .inr ⟨he, by omega⟩

/-- The half-cycles of a ramp-down. -/
def stopHalves (r : RampState) : Nat := max 1 ((r.multiplier.toNat + r.rampInc.toNat - 1) / r.rampInc.toNat)

theorem stopHalves_eq_one_iff {r : RampState} (h : 1 ≤ r.rampInc.toNat) :
    stopHalves r = 1 ↔ r.multiplier.toNat ≤ r.rampInc.toNat := by
  have hdiv : (r.multiplier.toNat + r.rampInc.toNat - 1) / r.rampInc.toNat ≤ 1 ↔
      r.multiplier.toNat ≤ r.rampInc.toNat := by
    rw [Nat.div_le_iff_le_mul_add_pred (by omega)]
    omega
  rw [← hdiv, stopHalves]
  omega

/-- One decrement takes one half-cycle off. -/
theorem stopHalves_down {r r' : RampState} (h : 1 ≤ r.rampInc.toNat) (hmore : r.rampInc.toNat < r.multiplier.toNat)
    (hinc : r'.rampInc = r.rampInc) (hmul : r'.multiplier.toNat = r.multiplier.toNat - r.rampInc.toNat) :
    stopHalves r' + 1 = stopHalves r := by
  have hsub : r.multiplier.toNat + r.rampInc.toNat - 1 =
      (r.multiplier.toNat - r.rampInc.toNat + r.rampInc.toNat - 1) + r.rampInc.toNat := by omega
  have hpos : 1 ≤ (r.multiplier.toNat - r.rampInc.toNat + r.rampInc.toNat - 1) / r.rampInc.toNat :=
    (Nat.one_le_div_iff h).2 (by omega)
  rw [stopHalves, stopHalves, hinc, hmul, hsub, Nat.add_div_right _ h]
  omega

/-- Settles O59: the ramp-down counts down to its end. -/
theorem rampDownEnds : Obligations.RampDownEnds := by
  intro s ps hv hs he hlatch hshut halves ticks
  have hq : Quiet s.cfg (withEvents s (ps.map EngIn.event)) :=
    ⟨rfl, hv, engInv_of_sameEngine hs (by constructor <;> rfl) (.inl rfl) id, hlatch, hshut⟩
  have hcounts : Counts s.cfg (RunsDown .softStop stopHalves ticks) :=
    counts_runsDown nofun nofun nofun fun {u t} hu hstop hend ht => by
      have hinc : 1 ≤ u.ramp.rampInc.toNat := hu.inv.inc_pos (by simp [hstop])
      have hdown := softStop_atBoundary (hu.ticking (by simp [hstop])) hend ht (.inl hstop)
      simp only [stopHalves_eq_one_iff hinc]
      split at hdown
      · next hlast =>
        rw [if_pos hlast]
        exact endedInIdle_engState hdown
      · next hlast =>
        rw [if_neg hlast]
        obtain ⟨hgoes, hsame, -, -, hmul⟩ := hdown
        exact ⟨hgoes, stopHalves_down hinc (by omega) hsame hmul⟩
  have hstart : RunsDown .softStop stopHalves ticks 0 (withEvents s (ps.map EngIn.event)) :=
    .inl ⟨he, le_max_left .., Nat.zero_add _⟩
  obtain ⟨t, ht, htq, hP, -⟩ := hcounts.run ps hq hstart (List.append_nil _).symm
  rw [Nat.zero_add] at hP
  refine ⟨t, ?_, hP.engState htq.inv⟩
  rw [runs, List.length_map]
  exact ht

/-- The half-cycles left of a ramp that counts `total` of them. -/
def countLeft (total : Nat) (r : RampState) : Nat := total - halvesDone r

/-- A start begins at index 0 with no half-cycle done (40 R145). -/
theorem started_ticksLeft {s : State} (hs : EngInv s) (he : s.seq.engState = .idle) (k : StartCmd) (total : Nat) :
    countLeft total (started k s).ramp = total ∧ ticksLeft (countLeft total) (started k s) = total * s.cfg.n := by
  have hleft : countLeft total (started k s).ramp = total := by rw [started_of_idle hs he]; rfl
  refine ⟨hleft, ?_⟩
  rw [ticksLeft, hleft, started_seq]
  rfl

/-- Settles O60: the ping counts its half-cycles up to its end. -/
theorem pingEndsByItself : Obligations.PingEndsByItself := by
  intro s ps hv hs he hlatch hrev hshort hshut hne
  obtain ⟨p, ps, rfl⟩ := List.exists_cons_of_ne_nil hne
  obtain ⟨-, -, -, -, -, -, hpingPos, -⟩ := valid_bounds hv
  have hcounts : Counts s.cfg
      (RunsDown .ping (countLeft (2 * s.cfg.pingRampHc.toNat)) (2 * s.cfg.pingRampHc.toNat * s.cfg.n)) :=
    counts_runsDown nofun nofun nofun fun {u t} hu hping hend ht => by
      have hcount := hu.inv.ping_count hping
      have hnext := ping_atBoundary (hu.ticking (by simp [hping])) hend ht hping
      rw [hu.cfg] at hcount hnext
      unfold countLeft
      split at hnext
      · rw [if_pos (by omega)]
        exact endedInIdle_engState hnext
      · obtain ⟨hgoes, -, hhalves, -⟩ := hnext
        rw [if_neg (by omega)]
        exact ⟨hgoes, by omega⟩
  have hfirst (q : EngIn) (rest : List Event) : RunsDown .ping (countLeft (2 * s.cfg.pingRampHc.toNat))
      (2 * s.cfg.pingRampHc.toNat * s.cfg.n) 0 (started .ping (sampled q rest s)) := by
    obtain ⟨hleft, hticks⟩ := started_ticksLeft (engInv_sampled hs q rest) he .ping (2 * s.cfg.pingRampHc.toNat)
    exact .inl ⟨rfl, by omega, by rw [hticks, Nat.zero_add]; rfl⟩
  obtain ⟨t, ht, htq, hP, -⟩ := hcounts.run_started .ping rfl hv hs he hlatch
    ((startAllowed_iff s).2 ⟨hrev, hshort, hshut⟩) hfirst p ps []
  refine ⟨t, ?_, hP.engState htq.inv⟩
  rw [List.append_nil] at ht
  rw [runs, List.length_map]
  exact ht

/-! ### The cold start (40 R171) -/

/-- A boundary of a soft start takes one half-cycle off, and after the last one hands over to NORMAL. -/
theorem softStart_countLeft {s t : State} (hs : ticking s) (hn : s.seq.idx.toNat + 1 = s.cfg.n)
    (ht : exec .none s = .next t) (he : s.seq.engState = .softStart) (hrev : ¬ reversedNow s) :
    if countLeft s.cfg.softStartCycles.toNat s.ramp = 1 then
      t.seq.engState = .normal ∧ t.ramp.multiplier = scaleByVBatt s.cfg s.cfg.softStartMaxDuty s.ports.vbattAvg
    else t.seq.engState = .softStart ∧
      countLeft s.cfg.softStartCycles.toNat t.ramp + 1 = countLeft s.cfg.softStartCycles.toNat s.ramp := by
  obtain ⟨-, hcount, hover', hnext⟩ := softStart_atBoundary hs hn ht he hrev
  obtain ⟨hover, -⟩ := softStart_hcOver hs.2.1 he
  have hlt := hs.2.1.soft_start_count he
  have hdone : halvesDone s.ramp = s.ramp.hcCount.toNat := by rw [halvesDone, hover]; rfl
  have hdone' : halvesDone t.ramp = s.ramp.hcCount.toNat + 1 := by rw [halvesDone, hover', hcount]; rfl
  rw [countLeft, countLeft, hdone', hdone]
  rw [hdone] at hlt
  split at hnext
  · rw [if_pos (by omega)]
    exact ⟨hnext.1, hnext.2.1⟩
  · rw [if_neg (by omega)]
    exact ⟨hnext.1, by omega⟩

/-- Unless a reversed feedback has been latched, `j` ticks of a soft start of `total` are done. -/
def Climbs (c : Cfg) (j : Nat) (s : State) : Prop :=
  s.flags.feedbackReversed = false → j < c.softStartCycles.toNat * c.n →
    s.seq.engState = .softStart ∧ 1 ≤ countLeft c.softStartCycles.toNat s.ramp ∧
    j + ticksLeft (countLeft c.softStartCycles.toNat) s = c.softStartCycles.toNat * c.n

theorem flag_clear_before {s t : State} (ht : exec .none s = .next t) (hflag : t.flags.feedbackReversed = false) :
    s.flags.feedbackReversed = false :=
  Bool.eq_false_iff.2 fun hset =>
    Bool.eq_false_iff.1 hflag ((tickFrame_exec (i := .none) rfl ht).flags.1 hset)

theorem not_reversedNow_of_flag {s t : State} (hs : ticking s) (ht : exec .none s = .next t)
    (hflag : t.flags.feedbackReversed = false) : ¬ reversedNow s :=
  fun hnow => Bool.eq_false_iff.1 hflag ((execNone_flags hs ht).1.2 (.inr hnow))

theorem counts_climbs (c : Cfg) : Counts c (Climbs c) where
  inputs h _ _ := h
  tick {j s t} hq h ht hflag hlt := by
    obtain ⟨he, hpos, hsum⟩ := h (flag_clear_before ht hflag) (by omega)
    have hs : ticking s := hq.ticking (by simp [he])
    have hrev := not_reversedNow_of_flag hs ht hflag
    obtain ⟨hstate, hpos', hless⟩ := ticksLeft_tick hs ht hrev (not_shortedNow (by simp [he])) hpos
      (fun hend hmore => by
        have hnext := softStart_countLeft hs hend ht he hrev
        rw [hq.cfg, if_neg hmore] at hnext
        exact ⟨hnext.1.trans he.symm, hnext.2⟩) (by omega)
    exact ⟨hstate.trans he, hpos', by omega⟩

/-- The tick that completes the soft start. -/
theorem climbs_last {c : Cfg} {j : Nat} {s t : State} (hq : Quiet c s) (h : Climbs c j s)
    (hj : j + 1 = c.softStartCycles.toNat * c.n) (ht : exec .none s = .next t)
    (hflag : t.flags.feedbackReversed = false) :
    t.seq.engState = .normal ∧ t.seq.idx = 0 ∧
    t.ramp.multiplier.toNat = scaled c.vbattNominal.toNat c.softStartMaxDuty.toNat s.ports.vbattAvg.toNat := by
  obtain ⟨he, hpos, hsum⟩ := h (flag_clear_before ht hflag) (by omega)
  have hs : ticking s := hq.ticking (by simp [he])
  obtain ⟨hone, hend⟩ := (ticksLeft_eq_one_iff hq.valid hq.inv hpos).1 (by omega)
  have hnext := softStart_countLeft hs hend ht he (not_reversedNow_of_flag hs ht hflag)
  rw [hq.cfg, if_pos hone] at hnext
  refine ⟨hnext.1, ?_, by rw [hnext.2, scaleByVBatt_toNat]⟩
  rw [execNone_boundary hs hend ht]
  exact boundary_idx _

/-- Part (b): a soft start of any inputs, with no reversed feedback latched, ends in NORMAL. -/
theorem cold_start {s : State} {ps : List EngIn} {last : EngIn} (hv : s.cfg.valid = true) (hs : EngInv s)
    (he : s.seq.engState = .idle) (hlatch : s.cmdLatch = 0x02) (hok : startAllowed s = true)
    (hlen : ps.length + 1 = s.cfg.n * s.cfg.softStartCycles.toNat) :
    ∃ t, runs s ((ps ++ [last]).map EngIn.event) = .next t ∧
      (t.flags.feedbackReversed = false →
        t.seq.engState = .normal ∧ t.seq.idx = 0 ∧ t.ramp.multiplier.toNat =
          scaled s.cfg.vbattNominal.toNat s.cfg.softStartMaxDuty.toNat last.vbatt.toNat) := by
  obtain ⟨hn, -, -, -, -, hcycles, -⟩ := valid_bounds hv
  rw [Nat.mul_comm] at hlen
  cases ps with
  | nil =>
    have : s.cfg.n ≤ s.cfg.softStartCycles.toNat * s.cfg.n := Nat.le_mul_of_pos_left _ hcycles
    simp only [List.length_nil] at hlen
    omega
  | cons p ps =>
    have hfirst (q : EngIn) (rest : List Event) : Climbs s.cfg 0 (started .softStart (sampled q rest s)) := by
      obtain ⟨hleft, hticks⟩ :=
        started_ticksLeft (engInv_sampled hs q rest) he .softStart s.cfg.softStartCycles.toNat
      exact fun _ _ => ⟨rfl, by omega, by rw [hticks, Nat.zero_add]; rfl⟩
    obtain ⟨u, hrun, huq, hclimbs, hevents⟩ :=
      (counts_climbs s.cfg).run_started .softStart rfl hv hs he hlatch hok hfirst p ps [last.event]
    obtain ⟨t, ht, -⟩ := (huq.sampled last []).execNone
    have hstep : step u = .next t := by
      rw [step_engTick huq.valid hevents, engTick_of_emptyLatch (huq.sampled last []).latch, ht]
    have hlast := climbs_last (huq.sampled last []) hclimbs hlen ht
    refine ⟨t, ?_, hlast⟩
    have hevs : ((p :: ps) ++ [last]).map EngIn.event = p.event :: (ps.map EngIn.event ++ [last.event]) := by simp
    rw [runs, hevs, List.length_cons, List.length_append, List.length_map]
    rw [Nat.add_right_comm]
    exact (run_add (M := Sys2Proof.core) hrun).trans (run_succ (M := Sys2Proof.core) hstep)

/-- A latched RESET or STOP is the one clear (40 R131, R137). -/
theorem engTick_clear {s : State} (h : s.cmdLatch = 0x01 ∨ s.cmdLatch = 0x06) : engTick s = .next (cleared s) := by
  obtain h | h := h
  · exact (engTick_command ((decodeCmd_eq_ok_iff _ .reset).2 ⟨rfl, h.symm⟩)).trans (exec_reset s)
  · exact (engTick_command ((decodeCmd_eq_ok_iff _ .stop).2 ⟨rfl, h.symm⟩)).trans (exec_stop s)

/-- Writing RESET or STOP and one tick clear the engine; the latch, being emptied, does not show which. -/
theorem runs_clear {s : State} {v : U32} {p : EngIn} (hv : s.cfg.valid = true) (hcmd : v = 1 ∨ v = 6) :
    runs s [.busWrite s.cfg.regBase 4 v, p.event] = .next (cleared (sampled p [] s)) := by
  have hwrite : step (withEvents s [.busWrite s.cfg.regBase 4 v, p.event]) =
      .next (cmdWrite v (beginEvent [p.event] s)) :=
    step_writeAt hv (o := 0) rfl (Nat.zero_le _) v [p.event]
  have htick : step (cmdWrite v (beginEvent [p.event] s)) = .next (cleared (sampled p [] s)) := by
    rw [step_engTick (s := cmdWrite v (beginEvent [p.event] s)) hv rfl, engTick_clear]
    · rfl
    · obtain rfl | rfl := hcmd
      · exact .inl rfl
      · exact .inr rfl
  exact (run_succ (M := Sys2Proof.core) hwrite).trans (run_succ (M := Sys2Proof.core) htick)

/-- Settles O58: the clear again is the clear, and the cold start. -/
theorem resetIsIdempotentAndColdStartReachesNormal : Obligations.ResetIsIdempotentAndColdStartReachesNormal := by
  refine ⟨fun s v p hv hcmd => ?_, fun s ps last hv hs he hlatch hrev hshort hshut hlen =>
    cold_start hv hs he hlatch ((startAllowed_iff s).2 ⟨hrev, hshort, hshut⟩) hlen⟩
  have hagain : cleared (sampled p [] (cleared (sampled p [] s))) = cleared (sampled p [] s) :=
    cleared_cleared (sampled p [] s)
  have hclear := runs_clear (s := cleared (sampled p [] s)) (p := p) hv hcmd
  exact ⟨_, runs_clear hv hcmd, rfl, rfl, rfl, hclear.trans (congrArg _ hagain)⟩

end Sys2Proof.Proofs
end

section
/-! PROOF. The Q16 arithmetic: the stored operations on integers, the laws of the fixed-point type, the floor
square root and the direction of the battery scaling (obligations O1, O2, O3, O4). -/

namespace Sys2Proof.Proofs

open Sys2Proof Sys2Proof.Machine Sys2Proof.Laws Sys2Proof.Claims

/-! ### The stored operations on integers (41_q16_arithmetic.md R183 to R188) -/

/-- The magnitude of an s32. -/
theorem toInt_natAbs_le (x : S32) : x.toInt.natAbs ≤ 2147483648 := by
  have hlo := x.le_toInt
  have hhi := x.toInt_lt
  omega

theorem q16FromInt_toInt (n : Int) : (q16FromInt n).toInt = sat32 (n * 65536) := satS32_eq_sat32 _

theorem q16Mul_toInt (a b : S32) : (q16Mul a b).toInt = sat32 ((a.toInt * b.toInt).tdiv 65536) :=
  satS32_eq_sat32 _

/-- The quotient by 65536 of an s32 lies in s32, so `q16_int` does not saturate. -/
theorem q16Int_toInt (p : S32) : (q16Int p).toInt = p.toInt.tdiv 65536 := by
  have hquot : (tdiv p.toInt 65536).natAbs ≤ 32768 := by
    rw [tdiv, Int.natAbs_tdiv]
    exact Nat.div_le_of_le_mul (toInt_natAbs_le p)
  exact satS32_of_mem (by omega) (by omega)

/-- The product of two s32 has a magnitude of at most `2^62`, so the s64 holds it. -/
theorem mul32_toInt (a b : S32) : (mul32 a b).toInt = a.toInt * b.toInt := by
  have hprod : (a.toInt * b.toInt).natAbs ≤ 2147483648 * 2147483648 := by
    rw [Int.natAbs_mul]
    exact Nat.mul_le_mul (toInt_natAbs_le a) (toInt_natAbs_le b)
  exact BitVec.toInt_ofInt_eq_self (by decide) (by omega) (by omega)

theorem div32_of_ne_zero (a : S32) {b : S32} (hb : b.toInt ≠ 0) :
    div32 a b = some (satS32 (a.toInt.tdiv b.toInt)) := if_neg hb

theorem q16Div_of_ne_zero (a : S32) {b : S32} (hb : b.toInt ≠ 0) :
    q16Div a b = some (satS32 ((a.toInt * 65536).tdiv b.toInt)) := if_neg hb

theorem div32_of_eq_zero (a : S32) {b : S32} (hb : b.toInt = 0) : div32 a b = none := if_pos hb

theorem q16Div_of_eq_zero (a : S32) {b : S32} (hb : b.toInt = 0) : q16Div a b = none := if_pos hb

/-- Settles O1: each operation stores the one saturation of its exact result. -/
theorem arithmeticIsExactThenSaturated : Obligations.ArithmeticIsExactThenSaturated :=
  ⟨q16FromInt_toInt, q16MulInt_eq_gained, mul32_toInt,
    fun a _ hb => ⟨_, div32_of_ne_zero a hb, satS32_eq_sat32 _⟩,
    fun a _ hb => ⟨_, q16Div_of_ne_zero a hb, satS32_eq_sat32 _⟩,
    fun a _ hb => ⟨div32_of_eq_zero a hb, q16Div_of_eq_zero a hb⟩⟩

/-! ### The laws of the fixed-point type (R184, R185) -/

/-- Storing the value of an s32 gives it back. -/
theorem satS32_toInt_self (x : S32) : satS32 x.toInt = x :=
  BitVec.eq_of_toInt_eq (satS32_of_mem x.le_toInt (Int.le_of_lt_add_one x.toInt_lt))

/-- Saturation is odd away from the one bound that has no counterpart. -/
theorem sat32_neg {v : Int} (h : v.natAbs ≤ 2147483647) : sat32 (-v) = -sat32 v := by
  unfold sat32
  omega

/-- On the integers that Q16 represents the encoding is exact, so the integer part undoes it. -/
theorem q16Int_q16FromInt {n : Int} (hlo : -32768 ≤ n) (hhi : n ≤ 32767) :
    (q16Int (q16FromInt n)).toInt = n := by
  have hexact : (q16FromInt n).toInt = n * 65536 := satS32_of_mem (by omega) (by omega)
  rw [q16Int_toInt, hexact, Int.mul_tdiv_cancel n (by decide)]

theorem q16Mul_comm (a b : S32) : q16Mul a b = q16Mul b a := by
  rw [q16Mul, q16Mul, Int.mul_comm]

/-- Truncation toward zero is odd, and so is a saturation that does nothing. -/
theorem q16Mul_neg_toInt {a b a' : S32} (hneg : a'.toInt = -a.toInt)
    (h : ((a.toInt * b.toInt).tdiv 65536).natAbs ≤ 2147483647) :
    (q16Mul a' b).toInt = -(q16Mul a b).toInt := by
  rw [q16Mul_toInt, q16Mul_toInt, hneg, Int.neg_mul, Int.neg_tdiv, sat32_neg h]

theorem q16Mul_one (a : S32) : q16Mul a 0x10000 = a := by
  have hexact : tdiv (a.toInt * (0x10000 : S32).toInt) 65536 = a.toInt :=
    Int.mul_tdiv_cancel a.toInt (by decide)
  rw [q16Mul, hexact, satS32_toInt_self]

/-- Settles O2. -/
theorem fixedPointLaws : Obligations.FixedPointLaws :=
  ⟨q16Int_toInt, fun _ => q16Int_q16FromInt, q16Mul_toInt, q16Mul_comm, fun _ _ _ => q16Mul_neg_toInt,
    q16Mul_one⟩

/-! ### The floor square root (R189) -/

/-- The first loop stops at a power of four above `n`, when it started at one. -/
theorem lt_four_pow_isqrtStart {n : Nat} : ∀ {k : Nat}, n < 4 ^ k → n < 4 ^ isqrtStart n k
  | 0, h => h
  | k + 1, h => by
    rw [isqrtStart]
    split
    next hskip => exact lt_four_pow_isqrtStart hskip
    next => exact h

/-- The second loop's invariant. With `k` bits to come and `p` the root found so far, `res` holds `p * 2^k`
and `n` what is left of the operand above `p * p`; the operand is below `(p + 2^k)^2`. A round compares it
with `(p + 2^(k-1))^2` and so sets or clears the next bit of the root. -/
theorem isqrtLoop_eq_sqrt (k : Nat) : ∀ (n p : Nat), n < 2 * (p * 2 ^ k) + 4 ^ k →
    isqrtLoop k n (p * 2 ^ k) = Nat.sqrt (p * p + n) := by
  induction k with
  | zero =>
    intro n p h
    have hroot : Nat.sqrt (p * p + n) = p := Nat.sqrt_add_eq p (by omega)
    rw [isqrtLoop, hroot, pow_zero, Nat.mul_one]
  | succ k ih =>
    intro n p h
    have hdouble : p * 2 ^ (k + 1) = 2 * (p * 2 ^ k) := by ring
    have hfour : 4 ^ k = 2 ^ k * 2 ^ k := by rw [← Nat.mul_pow]
    have hhalf : 2 * (p * 2 ^ k) / 2 = p * 2 ^ k := Nat.mul_div_cancel_left _ (by decide)
    rw [pow_succ 4, hdouble] at h
    rw [isqrtLoop, hdouble, hhalf]
    split
    next hset =>
      have hres : p * 2 ^ k + 4 ^ k = (p + 2 ^ k) * 2 ^ k := by rw [hfour, Nat.add_mul]
      have hsquare : (p + 2 ^ k) * (p + 2 ^ k) = p * p + (2 * (p * 2 ^ k) + 4 ^ k) := by rw [hfour]; ring
      rw [hres, ih _ _ (by rw [← hres]; omega), hsquare]
      congr 1
      omega
    next hclear => exact ih n p (by omega)

/-- `isqrt32` is the floor square root of the library. -/
theorem isqrt32_toNat (n : U32) : (isqrt32 n).toNat = Nat.sqrt n.toNat := by
  have hbits : n.toNat < 4 ^ isqrtStart n.toNat 16 := lt_four_pow_isqrtStart n.isLt
  have hloop := isqrtLoop_eq_sqrt (isqrtStart n.toNat 16) n.toNat 0 (by omega)
  rw [Nat.zero_mul, Nat.zero_mul, Nat.zero_add] at hloop
  have hfits : Nat.sqrt n.toNat < 2 ^ 16 := Nat.sqrt_lt.2 n.isLt
  rw [isqrt32, hloop, BitVec.toNat_ofNat, Nat.mod_eq_of_lt hfits]

/-- Settles O3: the three laws are those of the floor square root. -/
theorem squareRootIsTheFloorRoot : Obligations.SquareRootIsTheFloorRoot := by
  refine ⟨fun n => ?_, fun m n h => ?_, fun n k h => BitVec.eq_of_toNat_eq ?_⟩
  · rw [isqrt32_toNat]
    exact ⟨Nat.sqrt_le _, Nat.lt_succ_sqrt _⟩
  · rw [isqrt32_toNat, isqrt32_toNat]
    exact Nat.sqrt_le_sqrt h
  · rw [isqrt32_toNat, h, Nat.sqrt_eq]

/-! ### The battery scaling (R190) -/

/-- At or below nominal the ratio is at least 1.0, and the result no smaller. -/
theorem le_scaled {nominal x v : Nat} (hx : x ≤ 65535) (hv : v ≤ nominal) : x ≤ scaled nominal x v := by
  unfold scaled
  split
  next => exact Nat.le_refl x
  next hne =>
    have hratio : 65536 ≤ nominal * 65536 / v :=
      (Nat.le_div_iff_mul_le (Nat.pos_of_ne_zero hne)).2 (by omega)
    exact Nat.le_min.2 ⟨hx, (Nat.le_div_iff_mul_le (by decide)).2 (Nat.mul_le_mul_left x hratio)⟩

/-- At or above nominal the ratio is at most 1.0, and the result no larger. -/
theorem scaled_le {nominal x v : Nat} (hv : nominal ≤ v) : scaled nominal x v ≤ x := by
  unfold scaled
  split
  next => exact Nat.le_refl x
  next =>
    have hratio : nominal * 65536 / v ≤ 65536 := Nat.div_le_of_le_mul (Nat.mul_le_mul_right _ hv)
    have hscaled : x * (nominal * 65536 / v) / 65536 ≤ x :=
      Nat.div_le_of_le_mul (by rw [Nat.mul_comm 65536]; exact Nat.mul_le_mul_left x hratio)
    exact (Nat.min_le_right _ _).trans hscaled

/-- Settles O4. -/
theorem batteryScalingCompensates : Obligations.BatteryScalingCompensates := by
  intro c x v
  rw [scaleByVBatt_toNat]
  exact ⟨rfl, le_scaled (Nat.le_of_lt_succ x.isLt), scaled_le⟩

end Sys2Proof.Proofs
end

section
/-! PROOF. The tick of the last index of a half-cycle and the end of a full cycle of NORMAL (obligations O33,
O35). -/

namespace Sys2Proof.Proofs

open Sys2Proof Sys2Proof.Machine Sys2Proof.Laws Sys2Proof.Claims

/-! ### The end of a full cycle (42_sine_table_lookup.md R216) -/

/-- The safe window and the gain after a full cycle that ends in NORMAL (43_pid_corrector.md R242). -/
def nextSafe (wasNormal : Bool) (g : SafeGain) : SafeGain :=
  let left := if wasNormal then decU16 g.safeCyclesLeft else g.safeCyclesLeft
  ⟨left != 0, left⟩

/-- The imbalance of the two halves' duties (44_clamp_saturation.md R272). -/
def imbalance (s : State) : Int := (s.rebal.dutySumPos.toNat : Int) - s.rebal.dutySumNeg.toNat

/-- The offset nudged against the imbalance (44 R272). -/
def nudged (s : State) : S16 :=
  if (s.cfg.rebalanceThreshold.toNat : Int) < imbalance s then
    satS16 (max (-(s.cfg.zcOffsetMax.toNat : Int)) (s.rebal.zcOffset.toInt - s.cfg.zcOffsetStep.toNat))
  else if imbalance s < -(s.cfg.rebalanceThreshold.toNat : Int) then
    satS16 (min (s.cfg.zcOffsetMax.toNat : Int) (s.rebal.zcOffset.toInt + s.cfg.zcOffsetStep.toNat))
  else s.rebal.zcOffset

/-- No reduction in force; the phase bit keeps its value (44 R282). -/
def unreduced (r : SatState) : SatState := { r with reduceActive := false, reduceAmt := 0 }

/-- The detector's verdict on the two tail sums (44 R282). -/
def judged (s : State) : SatState :=
  if s.cfg.satThreshold.toNat < (satDiff s).natAbs then
    { s.satDet with
      reduceActive := true
      reducePhase := if satDiff s < 0 then .positive else .negative
      reduceAmt := satU16 (q16MulIntVal s.cfg.saturationDutyGain.toInt ((satDiff s).natAbs : Int)) }
  else unreduced s.satDet

theorem judged_frame (s : State) : judged s = { s.satDet with
    reduceActive := (judged s).reduceActive
    reducePhase := (judged s).reducePhase
    reduceAmt := (judged s).reduceAmt } := by
  unfold judged
  split <;> rfl

theorem rebalance_eq (s : State) : rebalance s = { s with rebal.zcOffset := nudged s } := by
  unfold rebalance nudged imbalance
  split_ifs <;> rfl

theorem saturationDetect_eq (s : State) : saturationDetect s = { s with satDet := judged s } := by
  unfold saturationDetect judged
  split <;> rfl

/-- All that `full_cycle_actions()` does: the safe window always, the two detectors after two NORMAL halves. -/
theorem fullCycleActions_eq (b : Bool) (s : State) : fullCycleActions b s =
    if s.ramp.normHalves.toNat = 2 then
      { s with
        safe := nextSafe b s.safe
        rebal.zcOffset := nudged s
        satDet := judged s }
    else { s with safe := nextSafe b s.safe, satDet := unreduced s.satDet } := by
  unfold fullCycleActions
  simp only [rebalance_eq, saturationDetect_eq]
  cases b <;> rfl

theorem fullCycleActions_nextSafe (b : Bool) (s : State) : (fullCycleActions b s).safe = nextSafe b s.safe := by
  rw [fullCycleActions_eq]
  split <;> rfl

theorem nextSafe_count (g : SafeGain) : (nextSafe true g).safeCyclesLeft.toNat = g.safeCyclesLeft.toNat - 1 :=
  decU16_toNat _

/-- The safe gain is in force while the window, counted down, has not run out. -/
theorem nextSafe_sel (g : SafeGain) : (nextSafe true g).kiSafeSel = true ↔ 2 ≤ g.safeCyclesLeft.toNat := by
  show (decU16 g.safeCyclesLeft != 0) = true ↔ _
  rw [bne_iff_ne, ne_eq, ← toNat_eq_zero_iff, decU16_toNat]
  omega

/-- The nudge on integers: its bounds are ZC_OFFSET_MAX and the ends of the register (notes/assumptions/13.md). -/
theorem nudged_toInt (s : State) : (nudged s).toInt =
    if (s.cfg.rebalanceThreshold.toNat : Int) < imbalance s then
      max (max (-(s.cfg.zcOffsetMax.toNat : Int)) (-32768)) (s.rebal.zcOffset.toInt - s.cfg.zcOffsetStep.toNat)
    else if imbalance s < -(s.cfg.rebalanceThreshold.toNat : Int) then
      min (min (s.cfg.zcOffsetMax.toNat : Int) 32767) (s.rebal.zcOffset.toInt + s.cfg.zcOffsetStep.toNat)
    else s.rebal.zcOffset.toInt := by
  have hlt := BitVec.toInt_lt (x := s.rebal.zcOffset)
  have hle := BitVec.le_toInt (x := s.rebal.zcOffset)
  norm_num at hlt hle
  unfold nudged
  split_ifs
  · rw [satS16_toInt, sat_eq_max_min (by decide)]; omega
  · rw [satS16_toInt, sat_eq_max_min (by decide)]; omega
  · rfl

theorem saturationDutyGain_nonneg {c : Cfg} (hv : c.valid = true) : 0 ≤ c.saturationDutyGain.toInt := by
  obtain ⟨-, -, -, -, -, -, -, -, -, -, hgain, -⟩ := valid_bounds hv
  exact hgain

/-- The reduction amount: the exact product, saturated once (notes/assumptions/22.md). -/
theorem reduceAmt_toNat {g : S32} (hg : 0 ≤ g.toInt) (d : Nat) :
    ((satU16 (q16MulIntVal g.toInt d)).toNat : Int) = min 65535 (gained g.toInt d) := by
  have hprod : 0 ≤ (g.toInt * d).tdiv 65536 := Int.tdiv_nonneg (Int.mul_nonneg hg (by omega)) (by decide)
  rw [satU16_toNat, sat_eq_max_min (by decide), q16MulIntVal, sat_eq_max_min (by decide), tdiv, gained, sat32]
  omega

/-- The detector on integers. -/
theorem judged_spec {s : State} (hg : 0 ≤ s.cfg.saturationDutyGain.toInt) :
    if s.cfg.satThreshold.toNat < (satDiff s).natAbs then
      (judged s).reduceActive = true ∧ ((judged s).reducePhase = .positive ↔ satDiff s < 0) ∧
      ((judged s).reduceAmt.toNat : Int) =
        min 65535 (gained s.cfg.saturationDutyGain.toInt ((satDiff s).natAbs : Int))
    else (judged s).reduceActive = false ∧ (judged s).reduceAmt = 0 := by
  unfold judged
  split
  · exact ⟨rfl, by simp, reduceAmt_toNat hg _⟩
  · exact ⟨rfl, rfl⟩

/-! ### The end of a half-cycle (42 R215) -/

theorem nextNormHalves_toNat (b : Bool) (n : U2) :
    (nextNormHalves b n).toNat = if b then min 2 (n.toNat + 1) else 0 := by
  cases b
  · rfl
  · simp only [nextNormHalves, if_true, BitVec.toNat_ofNat]
    omega

theorem closeCycle_of_negative {u : State} (hp : u.seq.phase = .negative) (b : Bool) : closeCycle b u = u :=
  if_neg (by simp [hp])

/-- Outside NORMAL the end of a full cycle is only pulsed. -/
theorem closeCycle_outside_normal {u : State} (he : u.seq.engState ≠ .normal) (b : Bool) :
    closeCycle b u = { u with pulses := (closeCycle b u).pulses } := by
  unfold closeCycle
  rw [if_neg he]
  split <;> rfl

theorem closeCycle_in_normal {u : State} (he : u.seq.engState = .normal) (hp : u.seq.phase = .positive) (b : Bool) :
    closeCycle b u = fullCycleActions b { u with pulses.fullCycle := true } := by
  rw [closeCycle, if_pos hp, if_pos he]

theorem closeCycle_pulses (b : Bool) (u : State) : (closeCycle b u).pulses =
    if u.seq.phase = .positive then { u.pulses with fullCycle := true } else u.pulses := by
  unfold closeCycle
  split
  · split
    · exact fullCycleActions_pulses ..
    · rfl
  · rfl

/-- Without two NORMAL halves the end of a cycle does not rebalance. -/
theorem closeCycle_rebal_of_few {u : State} (hfew : u.ramp.normHalves.toNat ≠ 2) (b : Bool) :
    (closeCycle b u).rebal = u.rebal := by
  unfold closeCycle
  split
  · split
    · rw [fullCycleActions_eq, if_neg (by exact hfew)]
    · rfl
  · rfl

/-- The offset is the only part of its group that the end of a half-cycle writes once the sums have moved. -/
theorem closeCycle_rebal (b : Bool) (u : State) : (closeCycle b u).rebal =
    { u.rebal with zcOffset := (closeCycle b u).rebal.zcOffset } := by
  unfold closeCycle
  split
  · split
    · rw [fullCycleActions_eq]
      split <;> rfl
    · rfl
  · rfl

/-- So is the reduction. -/
theorem closeCycle_satDet (b : Bool) (u : State) : (closeCycle b u).satDet = { u.satDet with
    reduceActive := (closeCycle b u).satDet.reduceActive
    reducePhase := (closeCycle b u).satDet.reducePhase
    reduceAmt := (closeCycle b u).satDet.reduceAmt } := by
  unfold closeCycle
  split
  · split
    · rw [fullCycleActions_eq]
      split
      · exact judged_frame ..
      · rfl
    · rfl
  · rfl

/-- The end of a half-cycle writes the gain, the offset, the reduction and the pulse of the full cycle. -/
theorem closeCycle_frame (b : Bool) (u : State) : closeCycle b u = { u with
    safe := (closeCycle b u).safe
    rebal.zcOffset := (closeCycle b u).rebal.zcOffset
    satDet.reduceActive := (closeCycle b u).satDet.reduceActive
    satDet.reducePhase := (closeCycle b u).satDet.reducePhase
    satDet.reduceAmt := (closeCycle b u).satDet.reduceAmt
    pulses.fullCycle := (closeCycle b u).pulses.fullCycle } := by
  have hpulses : (closeCycle b u).pulses = { u.pulses with fullCycle := (closeCycle b u).pulses.fullCycle } := by
    rw [closeCycle_pulses]
    split <;> rfl
  exact state_eq_iff.2 ⟨closeCycle_cfg .., closeCycle_cmdLatch .., closeCycle_seq .., closeCycle_ramp ..,
    closeCycle_pid .., closeCycle_flatTop .., closeCycle_fbDly .., closeCycle_rebal .., closeCycle_satDet .., rfl,
    closeCycle_fbZeroCount .., closeCycle_drive .., closeCycle_flags .., closeCycle_ovl .., closeCycle_zcChg ..,
    closeCycle_zcInv .., hpulses, closeCycle_ports .., closeCycle_busRdata .., closeCycle_events ..⟩

/-! ### The run goes on (42 R215) -/

/-- What the boundary of `q` hands to the end of the half-cycle when the run goes on: the common part with a
state, a ramp and a gain. -/
def going (q : State) (e : EngState) (r : RampState) (g : SafeGain) : State :=
  { boundaryCommon q with seq.engState := e, ramp := r, safe := g }

/-- The state, the ramp and the gain that the boundary of `q` may go on with (40 R160, R163, R165). -/
structure GoesOn (q : State) (e : EngState) (r : RampState) (g : SafeGain) : Prop where
  active : e ≠ .idle
  halves : r.normHalves = nextNormHalves (q.seq.engState == .normal) q.ramp.normHalves
  normal : q.seq.engState = .normal → e = .normal ∧ r = (boundaryCommon q).ramp ∧ g = q.safe
  safe : e ≠ .normal → g = q.safe

/-- A ramp that goes on in its state changes the ramp alone. -/
theorem goesOn_ramp {q : State} (hactive : q.seq.engState ≠ .idle) (hopen : q.seq.engState ≠ .normal) {r : RampState}
    (hr : r.normHalves = (boundaryCommon q).ramp.normHalves) : GoesOn q q.seq.engState r q.safe :=
  ⟨hactive, hr, fun he => absurd he hopen, fun _ => rfl⟩

theorem softStartBoundary_goesOn {q : State} (he : q.seq.engState = .softStart) :
    ∃ e r g, GoesOn q e r g ∧ softStartBoundary (boundaryCommon q) = going q e r g := by
  unfold softStartBoundary
  split
  · exact ⟨.normal, _, _, ⟨nofun, rfl, by simp [he], fun hne => absurd rfl hne⟩, rfl⟩
  · exact ⟨_, { countHalf (boundaryCommon q).ramp with multiplier := rampUp (boundaryCommon q) }, _,
      goesOn_ramp (by simp [he]) (by simp [he]) rfl, rfl⟩

/-- The two ways of a boundary: the run ends, or it goes on to the end of the half-cycle. -/
theorem boundary_ends_or_goesOn {q : State} (hactive : q.seq.engState ≠ .idle)
    (hping : q.seq.engState = .ping → halvesDone q.ramp < 131070) :
    (q.seq.engState ≠ .normal ∧ ∃ r, boundary q = endRun { boundaryCommon q with ramp := r }) ∨
    ∃ e r g, GoesOn q e r g ∧ boundary q = closeCycle (q.seq.engState == .normal) (going q e r g) := by
  cases he : q.seq.engState with
  | idle => exact absurd he hactive
  | softStart =>
    obtain ⟨e, r, g, hgoes, hu⟩ := softStartBoundary_goesOn he
    refine .inr ⟨e, r, g, hgoes, ?_⟩
    rw [← hu]
    unfold boundary
    rw [he]
    rfl
  | normal =>
    exact .inr ⟨q.seq.engState, _, q.safe, ⟨hactive, rfl, fun _ => ⟨he, rfl, rfl⟩, fun _ => rfl⟩, boundary_normal he⟩
  | ping =>
    have hb := boundary_ping he (hping he)
    split at hb
    · exact .inl ⟨nofun, hb⟩
    · obtain ⟨m, hb, -⟩ := hb
      exact .inr ⟨_, { countHalf (boundaryCommon q).ramp with multiplier := m }, _,
        goesOn_ramp hactive (by simp [he]) rfl, hb⟩
  | softStop =>
    have hb := boundary_softStop he
    split at hb
    · exact .inl ⟨nofun, hb⟩
    · obtain ⟨m, hb, -⟩ := hb
      exact .inr ⟨_, { (boundaryCommon q).ramp with multiplier := m }, _,
        goesOn_ramp hactive (by simp [he]) rfl, hb⟩

/-- What the boundary of `q` leaves in `t` when the run goes on. -/
structure Continued (q t : State) : Prop where
  frame : t = { boundaryCommon q with
    seq.engState := t.seq.engState, ramp := t.ramp, safe := t.safe
    rebal.zcOffset := t.rebal.zcOffset
    satDet.reduceActive := t.satDet.reduceActive
    satDet.reducePhase := t.satDet.reducePhase
    satDet.reduceAmt := t.satDet.reduceAmt
    pulses.fullCycle := t.pulses.fullCycle }
  active : t.seq.engState ≠ .idle
  halves : t.ramp.normHalves = nextNormHalves (q.seq.engState == .normal) q.ramp.normHalves
  normal : q.seq.engState = .normal →
    t.seq.engState = .normal ∧ t.ramp = { q.ramp with normHalves := t.ramp.normHalves }
  fullCycle : t.pulses.fullCycle = true ↔ q.seq.phase = .negative
  offset : q.seq.phase = .positive ∨ q.seq.engState ≠ .normal → t.rebal.zcOffset = q.rebal.zcOffset
  reduction : q.seq.phase = .positive ∨ t.seq.engState ≠ .normal →
    t.satDet.reduceActive = q.satDet.reduceActive ∧ t.satDet.reducePhase = q.satDet.reducePhase ∧
    t.satDet.reduceAmt = q.satDet.reduceAmt
  handover : q.seq.phase = .negative → q.seq.engState ≠ .normal → t.seq.engState = .normal →
    t.satDet.reduceActive = false ∧ t.satDet.reduceAmt = 0 ∧ t.satDet.reducePhase = q.satDet.reducePhase
  safe : t.seq.engState ≠ .normal ∨ (q.seq.engState = .normal ∧ q.seq.phase = .positive) → t.safe = q.safe

section GoesOn

variable {q : State} {e : EngState} {r : RampState} {g : SafeGain}

@[simp] theorem going_engState : (going q e r g).seq.engState = e := rfl
@[simp] theorem going_fullCycle : (going q e r g).pulses.fullCycle = q.pulses.fullCycle := rfl

theorem going_phase_of_positive (hp : q.seq.phase = .positive) : (going q e r g).seq.phase = .negative :=
  congrArg otherPhase hp

theorem going_phase_of_negative (hp : q.seq.phase = .negative) : (going q e r g).seq.phase = .positive :=
  congrArg otherPhase hp

/-- In the middle of a cycle, and outside NORMAL, nothing is written but the pulse. -/
theorem closeCycle_going_kept (hkept : q.seq.phase = .positive ∨ e ≠ .normal) (b : Bool) :
    closeCycle b (going q e r g) = { going q e r g with pulses := (closeCycle b (going q e r g)).pulses } := by
  obtain hp | he := hkept
  · rw [closeCycle_of_negative (going_phase_of_positive hp)]
  · exact closeCycle_outside_normal he b

/-- A full cycle that ends in NORMAL but was not computed in it has no NORMAL half-cycle, so that its end runs no
detector. -/
theorem closeCycle_going_handover (hfew : r.normHalves.toNat ≠ 2) (hp : q.seq.phase = .negative) (b : Bool) :
    closeCycle b (going q .normal r g) = { going q .normal r g with
      pulses.fullCycle := true, safe := nextSafe b g, satDet := unreduced (going q .normal r g).satDet } := by
  rw [closeCycle_in_normal rfl (going_phase_of_negative hp), fullCycleActions_eq, if_neg (by exact hfew)]
  rfl

theorem closeCycle_going_fullCycle (hpulse : q.pulses.fullCycle = false) (b : Bool) :
    (closeCycle b (going q e r g)).pulses.fullCycle = true ↔ q.seq.phase = .negative := by
  rw [closeCycle_pulses]
  cases hp : q.seq.phase with
  | positive => simp [going_phase_of_positive hp, hpulse]
  | negative => simp [going_phase_of_negative hp]

theorem GoesOn.few_halves (h : GoesOn q e r g) (hopen : q.seq.engState ≠ .normal) : r.normHalves.toNat ≠ 2 := by
  rw [h.halves, beq_false_of_ne hopen]
  nofun

/-- The end of the half-cycle, the run going on. -/
theorem GoesOn.continued (h : GoesOn q e r g) (hpulse : q.pulses.fullCycle = false) :
    Continued q (closeCycle (q.seq.engState == .normal) (going q e r g)) where
  frame := by
    refine (closeCycle_frame ..).trans ?_
    rw [closeCycle_seq, closeCycle_ramp]
    rfl
  active := by rw [closeCycle_seq]; exact h.active
  halves := by rw [closeCycle_ramp]; exact h.halves
  normal := fun hq => by
    obtain ⟨rfl, rfl, -⟩ := h.normal hq
    rw [closeCycle_seq, closeCycle_ramp]
    exact ⟨rfl, rfl⟩
  fullCycle := closeCycle_going_fullCycle hpulse _
  offset := fun hq => by
    obtain hp | hopen := hq
    · rw [closeCycle_going_kept (.inl hp)]; rfl
    · rw [closeCycle_rebal_of_few (by exact h.few_halves hopen)]; rfl
  reduction := fun hq => by
    rw [closeCycle_seq, going_engState] at hq
    rw [closeCycle_going_kept hq]
    exact ⟨rfl, rfl, rfl⟩
  handover := fun hp hopen he => by
    rw [closeCycle_seq, going_engState] at he
    subst he
    rw [closeCycle_going_handover (h.few_halves hopen) hp]
    exact ⟨rfl, rfl, rfl⟩
  safe := fun hq => by
    rw [closeCycle_seq, going_engState] at hq
    have hkept : q.seq.phase = .positive ∨ e ≠ .normal := hq.symm.imp_left And.right
    rw [closeCycle_going_kept hkept]
    obtain hopen | ⟨hnormal, -⟩ := hq
    · exact h.safe hopen
    · obtain ⟨-, -, hg⟩ := h.normal hnormal
      exact hg

end GoesOn

section Continued

variable {q t : State} (h : Continued q t)
include h

/-- The index restarts in the other phase, the PID state and the accumulators clear (42 R215). -/
theorem Continued.restart : t.seq.idx = 0 ∧ t.seq.phase = otherPhase q.seq.phase ∧ pidClear t ∧
    t.rebal.dutyAcc = 0 ∧ t.satDet.satAcc = 0 ∧ t.pulses.halfCycle = true := by
  rw [h.frame]
  exact ⟨rfl, rfl, ⟨rfl, rfl⟩, rfl, rfl, rfl⟩

theorem Continued.sums_of_positive (hp : q.seq.phase = .positive) :
    t.rebal.dutySumPos = q.rebal.dutyAcc ∧ t.rebal.dutySumNeg = q.rebal.dutySumNeg ∧
    t.satDet.satSumPos = q.satDet.satAcc ∧ t.satDet.satSumNeg = q.satDet.satSumNeg := by
  rw [h.frame]
  simp [boundaryCommon, hp]

theorem Continued.sums_of_negative (hp : q.seq.phase = .negative) :
    t.rebal.dutySumNeg = q.rebal.dutyAcc ∧ t.rebal.dutySumPos = q.rebal.dutySumPos ∧
    t.satDet.satSumNeg = q.satDet.satAcc ∧ t.satDet.satSumPos = q.satDet.satSumPos := by
  rw [h.frame]
  simp [boundaryCommon, hp]

/-- The boundary leaves what the duty of the tick has driven. -/
theorem Continued.kept : t.drive = q.drive ∧ t.ovl = q.ovl ∧ t.fbDly = q.fbDly ∧ t.fbZeroCount = q.fbZeroCount := by
  rw [h.frame]
  exact ⟨rfl, rfl, rfl, rfl⟩

/-- The groups that no boundary writes. -/
theorem Continued.groups_kept : t = { q with
    seq := t.seq, ramp := t.ramp, pid := t.pid, flatTop := t.flatTop, fbDly := t.fbDly, rebal := t.rebal
    satDet := t.satDet, safe := t.safe, fbZeroCount := t.fbZeroCount, drive := t.drive
    flags := t.flags, ovl := t.ovl
    pulses.halfCycle := t.pulses.halfCycle, pulses.fullCycle := t.pulses.fullCycle } := by
  rw [h.frame]
  rfl

theorem Continued.normHalves : t.ramp.normHalves.toNat =
    if q.seq.engState = .normal then min 2 (q.ramp.normHalves.toNat + 1) else 0 := by
  rw [h.halves, nextNormHalves_toNat]
  simp only [beq_iff_eq]

end Continued

/-! ### The tick of the last index -/

theorem driven_of_eq {s t u : State} {d : Int} (hdrive : t.drive = u.drive) (hovl : t.ovl = u.ovl)
    (h : driven s u d) : driven s t d := by
  unfold driven
  rw [hdrive, hovl]
  exact h

theorem dutySum_congr {s t u : State} (hdrive : t.drive = u.drive) : dutySum s t = dutySum s u := by
  rw [dutySum, hdrive, dutySum]

/-- Tests that do not stop the run leave its state, and the near-zero test has passed. -/
theorem stateAfterTests_kept {s : State} {e : EngState} (h : stateAfterTests s e) (he : e ≠ .softStop) :
    ¬ shortedNow s ∧ e = s.seq.engState := by
  obtain ⟨-, hstop⟩ | ⟨-, hshort, hstate⟩ := h
  · exact absurd hstop he
  · exact ⟨hshort, hstate⟩

/-- The duty of a tick: closed-loop where its tests leave it in NORMAL, else open-loop (40 R152). -/
theorem computed_duty {s : State} (hv : s.cfg.valid = true) (h : EngInv s) :
    ((computed (entry s) s).2.toNat : Int) =
      if (tested s).seq.engState = .normal then (normalResult s).duty else openDuty s := by
  split
  · next he =>
    obtain ⟨hshort, hstate⟩ := stateAfterTests_kept (testsDone_tested h).state (by simp [he])
    exact (computes_computed hv h (hstate.symm.trans he) hshort).duty
  · next he =>
    rw [computed_open _ he]
    exact congrArg _ (clampDuty_entry hv)

/-- What the tick of `s` leaves in `q` before its advance (40 R150 steps D to H). -/
structure Ticked (s q : State) : Prop where
  state : stateAfterTests s q.seq.engState
  zeros : q.fbZeroCount.toNat = zeroCountNow s
  duty : driven s q (if q.seq.engState = .normal then (normalResult s).duty else openDuty s)
  line : lined s q
  dutyAcc : q.rebal.dutyAcc.toNat = dutySum s q
  satAcc : q.satDet.satAcc.toNat = tailSum s
  frame : q = { s with
    seq.engState := q.seq.engState, pid := q.pid, flatTop := q.flatTop, fbDly := q.fbDly
    rebal.dutyAcc := q.rebal.dutyAcc
    satDet.satAcc := q.satDet.satAcc
    fbZeroCount := q.fbZeroCount, drive := q.drive, flags := q.flags, ovl := q.ovl
    pulses.halfCycle := false, pulses.fullCycle := false }

theorem ticked_preAdvance {s : State} (hs : ticking s) : Ticked s (preAdvance (entry s) (beginTick s)) := by
  obtain ⟨hv, hb, -, -⟩ := ticking_beginTick hs
  have hdone := testsDone_tested hb
  have hstate : (preAdvance (entry s) (beginTick s)).seq = (tested (beginTick s)).seq := preAdvance_seq ..
  constructor
  case state => rw [hstate]; exact hdone.state
  case zeros => rw [preAdvance_fbZeroCount]; exact hdone.zero
  case duty =>
    rw [hstate]
    exact computed_duty hv hb ▸ driven_preAdvance (entry s) (beginTick s)
  case line => exact lined_shiftFeedback (s := beginTick s) hb.line_length (preAdvance_fbDly ..)
  case dutyAcc => exact preAdvance_dutyAcc hv hb _
  case satAcc => exact preAdvance_satAcc hv hb _
  case frame =>
    have hseq : (tested (beginTick s)).seq = { s.seq with engState := (tested (beginTick s)).seq.engState } :=
      (SeqState.mk.injEq ..).mpr ⟨rfl, tested_phase _, tested_idx _⟩
    refine state_eq_iff.2 ?_
    simp [preAdvance_rebal, preAdvance_satDet, hseq.symm]

section Ticked

variable {s q : State} (h : Ticked s q)
include h

theorem Ticked.phase : q.seq.phase = s.seq.phase := by rw [h.frame]

theorem Ticked.zcOffset : q.rebal.zcOffset = s.rebal.zcOffset := by rw [h.frame]

theorem Ticked.reduction : q.satDet.reduceActive = s.satDet.reduceActive ∧
    q.satDet.reducePhase = s.satDet.reducePhase ∧ q.satDet.reduceAmt = s.satDet.reduceAmt := by
  rw [h.frame]
  exact ⟨rfl, rfl, rfl⟩

theorem Ticked.safe : q.safe = s.safe := by rw [h.frame]

theorem Ticked.ramp : q.ramp = s.ramp := by rw [h.frame]

/-- No test of a tick stops the engine. -/
theorem Ticked.active (hactive : s.seq.engState ≠ .idle) : q.seq.engState ≠ .idle := by
  obtain ⟨-, he⟩ | ⟨-, -, he⟩ := h.state
  · simp [he]
  · rwa [he]

/-- A ping in progress has not run out of the half-cycles that the machine can count. -/
theorem Ticked.ping_halvesDone (hinv : EngInv s) (he : q.seq.engState = .ping) : halvesDone q.ramp < 131070 := by
  obtain ⟨-, hstate⟩ := stateAfterTests_kept h.state (by simp [he])
  have hcount := hinv.ping_count (hstate.symm.trans he)
  have hmax := s.cfg.pingRampHc.isLt
  rw [h.ramp]
  omega

end Ticked

/-- The two ways of the tick of the last index: the run ends, or it goes on. -/
theorem execNone_ends_or_continues {s : State} (hs : ticking s) (hn : s.seq.idx.toNat + 1 = s.cfg.n) :
    ∃ q t, Ticked s q ∧ exec .none s = .next t ∧
      ((q.seq.engState ≠ .normal ∧ endedInIdle s t) ∨ Continued q t) := by
  have hq := ticked_preAdvance hs
  have ht := execNone_of_ticking hs
  rw [advance_boundary (by simpa using hn)] at ht
  refine ⟨_, _, hq, ht, ?_⟩
  obtain ⟨-, hinv, hactive, -⟩ := hs
  obtain ⟨hopen, r, hend⟩ | ⟨e, r, g, hgoes, hb⟩ :=
    boundary_ends_or_goesOn (hq.active hactive) (hq.ping_halvesDone hinv)
  · rw [hend]
    exact .inl ⟨hopen, endedInIdle_endRun _ s r⟩
  · rw [hb]
    exact .inr (hgoes.continued (by simp))

/-- Settles O33: the run ends, or the boundary goes on from what the tick has left. -/
theorem halfCycleBoundary : Obligations.HalfCycleBoundary := by
  intro s hs hn
  obtain ⟨q, t, hq, ht, hways⟩ := execNone_ends_or_continues hs hn
  have hlatch : t.cmdLatch = s.cmdLatch := by
    rw [execNone_boundary hs hn ht, boundary_cmdLatch, preAdvance_cmdLatch]
    rfl
  refine ⟨t, q.seq.engState, ht, hq.state, execNone_flags hs ht, hlatch, ?_⟩
  obtain ⟨hopen, hend⟩ | hgoes := hways
  · exact ⟨fun he => absurd he hopen, fun _ => hend, fun hrun => absurd (endedInIdle_engState hend) hrun⟩
  refine ⟨fun he => (hgoes.normal he).1, fun hidle => absurd hidle hgoes.active, fun _ => ?_⟩
  obtain ⟨hidx, hphase, hpid, hacc, hsat, hpulse⟩ := hgoes.restart
  obtain ⟨hdrive, hovl, hline, hzeros⟩ := hgoes.kept
  have hsum : q.rebal.dutyAcc.toNat = dutySum s t := hq.dutyAcc.trans (dutySum_congr hdrive.symm)
  refine ⟨hidx, ?phase, hpid, hacc, hsat, ?line, ?pos, ?neg, hpulse, ?full, ?halves, ?duty, ?zeros, ?ramp, ?offset,
    ?reduction, ?handover, ?safe, ?frame⟩
  case phase => rw [hphase, hq.phase]; cases s.seq.phase <;> rfl
  case line => unfold lined; rw [hline]; exact hq.line
  case pos =>
    intro hp
    obtain ⟨hpos, hneg, htail, hother⟩ := hgoes.sums_of_positive (hq.phase.trans hp)
    exact ⟨hpos ▸ hsum, hneg.trans (by rw [hq.frame]), htail ▸ hq.satAcc, hother.trans (by rw [hq.frame])⟩
  case neg =>
    intro hp
    obtain ⟨hneg, hpos, htail, hother⟩ := hgoes.sums_of_negative (hq.phase.trans hp)
    exact ⟨hneg ▸ hsum, hpos.trans (by rw [hq.frame]), htail ▸ hq.satAcc, hother.trans (by rw [hq.frame])⟩
  case full => rw [hgoes.fullCycle, hq.phase]
  case halves => rw [hgoes.normHalves, hq.ramp]
  case duty => exact driven_of_eq hdrive hovl hq.duty
  case zeros => rw [hzeros]; exact hq.zeros
  case ramp => exact fun he => hq.ramp ▸ (hgoes.normal he).2
  case offset => exact fun hkept => (hgoes.offset (hq.phase ▸ hkept)).trans hq.zcOffset
  case reduction =>
    intro hkept
    obtain ⟨hact, hph, hamt⟩ := hgoes.reduction (hq.phase ▸ hkept)
    obtain ⟨hact', hph', hamt'⟩ := hq.reduction
    exact ⟨hact.trans hact', hph.trans hph', hamt.trans hamt'⟩
  case handover =>
    intro hp hopen he
    obtain ⟨hact, hamt, hph⟩ := hgoes.handover (hq.phase.trans hp) hopen he
    obtain ⟨-, hph', -⟩ := hq.reduction
    exact ⟨hact, hamt, hph.trans hph'⟩
  case safe => exact fun hkept => (hgoes.safe (hq.phase ▸ hkept)).trans hq.safe
  case frame =>
    refine hgoes.groups_kept.trans ?_
    rw [hq.frame]

/-! ### The full cycle of NORMAL (R216) -/

/-- What the boundary of `q` hands to the actions at the end of a full cycle of NORMAL. -/
def cycleOver (q : State) : State := { boundaryCommon q with pulses.fullCycle := true }

theorem boundary_cycleOver {q : State} (he : q.seq.engState = .normal) (hp : q.seq.phase = .negative) :
    boundary q = fullCycleActions true (cycleOver q) := by
  have hphase : (boundaryCommon q).seq.phase = .positive := congrArg otherPhase hp
  rw [boundary_normal he, closeCycle_in_normal (by exact he) hphase, cycleOver]

/-- The actions at the end of a full cycle of NORMAL see its two halves. -/
theorem cycleOver_sums {s q : State} (hq : Ticked s q) (hp : s.seq.phase = .negative) :
    imbalance (cycleOver q) = s.rebal.dutySumPos.toNat - dutySum s q ∧
    satDiff (cycleOver q) = s.satDet.satSumPos.toNat - tailSum s := by
  have hphase := hq.phase.trans hp
  rw [← hq.dutyAcc, ← hq.satAcc]
  constructor
  · simp only [imbalance, cycleOver, boundaryCommon, hphase, reduceCtorEq, if_false]
    rw [hq.frame]
  · simp only [satDiff, cycleOver, boundaryCommon, hphase, reduceCtorEq, if_false]
    rw [hq.frame]

theorem cycleOver_normHalves {s q : State} (hq : Ticked s q) (he : q.seq.engState = .normal) :
    (cycleOver q).ramp.normHalves.toNat = min 2 (s.ramp.normHalves.toNat + 1) := by
  show (nextNormHalves (q.seq.engState == .normal) q.ramp.normHalves).toNat = _
  rw [nextNormHalves_toNat, he, hq.ramp]
  rfl

/-- Settles O35: the safe window at once, the detectors after a second NORMAL half. -/
theorem fullCycleInNormal : Obligations.FullCycleInNormal := by
  intro s t hs he hshort hp hn ht
  have hq := ticked_preAdvance hs
  have hb := execNone_boundary hs hn ht
  generalize preAdvance (entry s) (beginTick s) = q at hq hb
  have hnormal : q.seq.engState = .normal :=
    (stateAfterTests_pass hq.state (not_reversedNow (by simp [he])) hshort).trans he
  rw [boundary_cycleOver hnormal (hq.phase.trans hp)] at hb
  have hhalves := cycleOver_normHalves hq hnormal
  obtain ⟨-, hreducePhase, -⟩ := hq.reduction
  obtain ⟨himb, hdiff⟩ := cycleOver_sums hq hp
  have hsafe : t.safe = nextSafe true s.safe := by
    rw [hb, fullCycleActions_nextSafe, ← hq.safe]; rfl
  refine ⟨by rw [hsafe, nextSafe_count], by rw [hsafe, nextSafe_sel], fun hnone => ?_, fun hsome => ?_⟩
  · rw [hnone] at hhalves
    rw [fullCycleActions_eq, if_neg (by rw [hhalves]; decide)] at hb
    rw [hb]
    exact ⟨hq.zcOffset, rfl, rfl, hreducePhase⟩
  · have htwo : (cycleOver q).ramp.normHalves.toNat = 2 := by
      have := mt toNat_eq_zero_iff.1 hsome
      omega
    rw [fullCycleActions_eq, if_pos htwo] at hb
    have hcfg : (cycleOver q).cfg = s.cfg := by rw [hq.frame]; rfl
    have hoffset := nudged_toInt (cycleOver q)
    have hverdict := judged_spec (s := cycleOver q) (hcfg ▸ saturationDutyGain_nonneg hs.1)
    rw [hcfg, himb, show (cycleOver q).rebal.zcOffset = s.rebal.zcOffset from hq.zcOffset] at hoffset
    rw [hcfg, hdiff] at hverdict
    have hdrive : t.drive = q.drive := (congrArg State.drive hb).trans rfl
    rw [dutySum_congr hdrive, hb]
    exact ⟨hoffset, hverdict⟩

end Sys2Proof.Proofs
end

section
/-! PROOF. The ticks of NORMAL inside a half-cycle, and the gain between the full cycles (obligations O31,
O36). -/

namespace Sys2Proof.Proofs

open Sys2Proof Sys2Proof.Machine Sys2Proof.Laws Sys2Proof.Claims

/-! ### A tick of NORMAL inside a half-cycle (43_pid_corrector.md R234, 44_clamp_saturation.md R297) -/

/-- An open-loop tick leaves the PID state and the flat-top window (43 R241, 44 R267). -/
theorem preAdvance_pid_of_open {s : State} (x : U32) (he : (preAdvance x s).seq.engState ≠ .normal) :
    (preAdvance x s).pid = s.pid ∧ (preAdvance x s).flatTop = s.flatTop := by
  rw [preAdvance_seq] at he
  rw [preAdvance_pid, preAdvance_flatTop, computed_open x he, tested_frame]
  exact ⟨rfl, rfl⟩

/-- Inside a half-cycle a tick is its parts up to the advance, at the next index. -/
theorem execNone_next_index {s : State} (hs : ticking s) (hn : s.seq.idx.toNat + 1 < s.cfg.n) :
    exec .none s = .next { preAdvance (entry s) (beginTick s) with
      seq := ⟨(preAdvance (entry s) (beginTick s)).seq.engState, s.seq.phase, s.seq.idx + 1⟩ } := by
  rw [execNone_of_ticking hs, advance_preAdvance_inside (s := beginTick s) hs.1 hn, preAdvance_seq]
  rfl

/-- Settles O31: what holds before the advance holds after it; a failed test has made the tick open-loop, and
a passed one leaves it the closed-loop tick. -/
theorem closedLoopTick : Obligations.ClosedLoopTick := by
  intro s hs he hn
  have ht := execNone_next_index hs hn
  have hq := ticked_preAdvance hs
  have hkept := preAdvance_pid_of_open (s := beginTick s) (entry s)
  generalize preAdvance (entry s) (beginTick s) = q at ht hq hkept
  refine ⟨_, q.seq.engState, ht, hq.state, rfl, execNone_flags hs ht, hq.zeros, hq.line, ?failed, ?passed,
    hq.dutyAcc, hq.satAcc, ?frame⟩
  case failed =>
    intro hstop
    have hopen : q.seq.engState ≠ .normal := by simp [hstop]
    have hduty := hq.duty
    rw [if_neg hopen] at hduty
    exact ⟨driven_of_eq rfl rfl hduty, hkept hopen⟩
  case passed =>
    intro hnormal
    obtain ⟨hshort, -⟩ := stateAfterTests_kept hq.state (by simp [hnormal])
    obtain ⟨t, d, ht', ⟨hint, hprev, hsaved, hactive, hend, hduty⟩, hdriven, -⟩ :=
      closedLoop_tick hs he hshort hn
    cases ht.symm.trans ht'
    exact ⟨hduty ▸ hdriven, hint, hprev, hsaved, hactive, hend⟩
  case frame =>
    exact congrArg (fun u : State => { u with seq := ⟨q.seq.engState, s.seq.phase, s.seq.idx + 1⟩ }) hq.frame

/-! ### The gain between the full cycles (43 R242) -/

/-- Of the rows of the transition table, only the end of the soft start leads to NORMAL without a command (40
R160). -/
theorem TickRow.softStart_of_normal {s t : State} (h : TickRow s t) (ht : t.seq.engState = .normal) :
    s.seq.engState = .softStart := by
  obtain ⟨he, -⟩ | ⟨-, hstop, -⟩ | ⟨he, -⟩ | ⟨-, hidle, -⟩ | ⟨-, hidle, -⟩ := h
  · exact he
  · exact nomatch hstop.symm.trans ht
  · exact he
  · exact nomatch hidle.symm.trans ht
  · exact nomatch hidle.symm.trans ht

/-- A boundary that ends in NORMAL and is not the soft start's hand-over was computed in NORMAL. -/
theorem Ticked.normal_of_boundary {s q t : State} (hq : Ticked s q) (hs : ticking s)
    (hn : s.seq.idx.toNat + 1 = s.cfg.n) (ht : exec .none s = .next t) (hnormal : t.seq.engState = .normal)
    (hsoft : s.seq.engState ≠ .softStart) : q.seq.engState = .normal := by
  have hstays : s.seq.engState = .normal := by
    by_contra hne
    exact hsoft ((tickRow_of_change hs ht fun h => hne (h.symm.trans hnormal)).softStart_of_normal hnormal)
  have hshort : ¬ shortedNow s := by
    intro hfail
    have hdown := softStop_atBoundary hs hn ht (.inr (.inr hfail))
    split at hdown
    · exact nomatch (endedInIdle_engState hdown).symm.trans hnormal
    · exact nomatch hdown.1.symm.trans hnormal
  exact (stateAfterTests_pass hq.state (not_reversedNow hsoft) hshort).trans hstays

/-- The tick of the last index of POSITIVE keeps the gain, but for the soft start's hand-over. -/
theorem execNone_safe_atBoundary {s t : State} (hs : ticking s) (hn : s.seq.idx.toNat + 1 = s.cfg.n)
    (ht : exec .none s = .next t) (hrun : t.seq.engState ≠ .idle) (hpulse : t.pulses.fullCycle = false)
    (hramp : ¬ (s.seq.engState = .softStart ∧ t.seq.engState = .normal)) : t.safe = s.safe := by
  obtain ⟨q, u, hq, hu, hways⟩ := execNone_ends_or_continues hs hn
  cases ht.symm.trans hu
  obtain ⟨-, hend⟩ | hgoes := hways
  · exact absurd (endedInIdle_engState hend) hrun
  refine (hgoes.safe ?_).trans hq.safe
  by_cases hnormal : t.seq.engState = .normal
  · have hpos : q.seq.phase = .positive := by
      cases hp : q.seq.phase with
      | positive => rfl
      | negative => exact absurd (hgoes.fullCycle.2 hp) (by simp [hpulse])
    exact .inr ⟨hq.normal_of_boundary hs hn ht hnormal fun he => hramp ⟨he, hnormal⟩, hpos⟩
  · exact .inl hnormal

/-- A tick that ends no full cycle keeps the gain, but for the soft start's hand-over. -/
theorem execNone_safe {s t : State} (hs : ticking s) (ht : exec .none s = .next t)
    (hrun : t.seq.engState ≠ .idle) (hpulse : t.pulses.fullCycle = false)
    (hramp : ¬ (s.seq.engState = .softStart ∧ t.seq.engState = .normal)) : t.safe = s.safe := by
  by_cases hn : s.seq.idx.toNat + 1 = s.cfg.n
  · exact execNone_safe_atBoundary hs hn ht hrun hpulse hramp
  · have hidx := hs.2.1.idx_lt
    rw [execNone_inside hs (by omega) ht]
    exact preAdvance_safe ..

/-- Settles O36: a command that leaves the engine running is a tick of NONE, with the latch kept or emptied, or
from NORMAL in SOFT_STOP; none of these three changes the gain before the tick. -/
theorem gainChangesOnlyBetweenCycles : Obligations.GainChangesOnlyBetweenCycles := by
  intro s t i hi hs ht hrun hpulse hramp
  have ⟨hv, hinv, hactive, hunshut⟩ := hs
  obtain ⟨-, rfl⟩ | ⟨hshut, -⟩ | ⟨-, ht | ht⟩ | ⟨k, -, hidle, -⟩ | ⟨-, he, hp, hidx, -, ht⟩ :=
    exec_command_cases hi ht
  · exact absurd rfl hrun
  · exact absurd hshut hunshut
  · exact execNone_safe hs ht hrun hpulse hramp
  · exact execNone_safe (s := emptyLatch s) ⟨hv, engInv_emptyLatch hinv, hactive, hunshut⟩ ht hrun hpulse hramp
  · exact absurd hidle hactive
  · exact execNone_safe (s := stopping s) (ticking_stopping hv hinv he hp hidx hunshut) ht hrun hpulse
      fun h => nomatch h.1

end Sys2Proof.Proofs
end

section
/-! PROOF. The flat-top window of a half-cycle (obligation O32). -/

namespace Sys2Proof.Proofs

open Sys2Proof Sys2Proof.Machine Sys2Proof.Laws Sys2Proof.Claims

/-! ### What a tick of NORMAL does with the window (44_clamp_saturation.md R264 to R266) -/

/-- What the closed-loop computation can do with the window: keep the one that is still open, open one in the
rising half, or leave none open, with the sum updated from the one in force before. -/
inductive Window (s : State) (r : PidResult) : Prop
  | kept (hopen : stillOpen s = true) (hactive : r.active = true)
      (hend : r.endIdx = s.flatTop.endIdx.toNat) (hsaved : r.saved = s.pid.savedIntegralSum.toInt)
  | opened (hopen : stillOpen s = false) (hidx : s.seq.idx.toNat ≤ s.cfg.n / 2) (hactive : r.active = true)
      (hend : r.endIdx = s.cfg.n - s.seq.idx.toNat)
  | shut (hopen : stillOpen s = false) (hactive : r.active = false)
      (hsum : r.integral =
        max (-s.cfg.iLimit.toInt) (min ((sumBefore s).toInt + r.prevError) s.cfg.iLimit.toInt))

theorem window_normalResult (s : State) : Window s (normalResult s) := by
  obtain ⟨opens, hopens⟩ : ∃ b, b = _ := ⟨_, rfl⟩
  have hr := normalResult_eq (s := s) rfl rfl rfl hopens
  rw [hr]
  cases hopen : stillOpen s with
  | true =>
    have hnone : opens = false := by simp [hopens, hopen]
    exact .kept hopen rfl (by simp [hnone]) (by simp [hnone])
  | false =>
    cases opens with
    | true =>
      have hidx : s.seq.idx.toNat ≤ s.cfg.n / 2 := of_decide_eq_true ((Bool.and_eq_true _ _).mp hopens.symm).2
      exact .opened hopen hidx rfl rfl
    | false => exact .shut hopen rfl rfl

/-- An open window holds the integral at 0 (43 R238, 44 R264). -/
theorem normalResult_integral_of_active {s : State} (h : (normalResult s).active = true) :
    (normalResult s).integral = 0 := if_pos h

/-- An open window gives FLAT_TOP_DUTY where no reduction is in force (44 R265). -/
theorem normalResult_duty_of_active {s : State} (h : (normalResult s).active = true)
    (hreduce : s.satDet.reduceActive = false) : (normalResult s).duty = s.cfg.flatTopDuty.toNat :=
  (if_neg (by simp [hreduce])).trans (if_pos h)

theorem stillOpen_of_lt {s : State} (h : s.flatTop.active = true)
    (hend : s.seq.idx.toNat < s.flatTop.endIdx.toNat) : stillOpen s = true := by
  simp [stillOpen, closing, h, hend]

theorem closing_of_le {s : State} (h : s.flatTop.active = true)
    (hend : s.flatTop.endIdx.toNat ≤ s.seq.idx.toNat) : closing s = true := by
  simp [closing, h, hend]

theorem active_of_stillOpen {s : State} (h : stillOpen s = true) : s.flatTop.active = true :=
  ((Bool.and_eq_true _ _).mp h).1

/-- No window opens on the falling side (44 R264). -/
theorem Window.shut_of_falling {s : State} {r : PidResult} (h : Window s r) (hopen : stillOpen s = false)
    (hfall : s.cfg.n < 2 * s.seq.idx.toNat) : r.active = false ∧ r.integral =
      max (-s.cfg.iLimit.toInt) (min ((sumBefore s).toInt + r.prevError) s.cfg.iLimit.toInt) := by
  cases h with
  | kept hstill => exact absurd hstill (by simp [hopen])
  | opened _ hidx => omega
  | shut _ hactive hsum => exact ⟨hactive, hsum⟩

/-- Settles O32: the three things that the computation can do with a window, read off the registers. -/
theorem flatTopWindow : Obligations.FlatTopWindow := by
  intro s t hs he hn ht hnormal
  obtain ⟨u, e, hu, -, hseq, -, -, -, -, hpassed, -⟩ := closedLoopTick s hs he hn
  cases ht.symm.trans hu
  obtain ⟨hdriven, hint, hprev, hsaved, hactive, hend⟩ :=
    hpassed ((congrArg SeqState.engState hseq).symm.trans hnormal)
  have hw := window_normalResult s
  refine ⟨?opens, ?holds, ?keeps, ?closes, ?falling⟩
  case opens =>
    intro hwas hopen
    cases hw with
    | kept hstill => simp [active_of_stillOpen hstill] at hwas
    | opened _ hidx _ hk => exact ⟨hidx, hend.trans hk⟩
    | shut _ hshut => simp [hactive, hshut] at hopen
  case holds =>
    intro hopen
    have hopen' := hactive.symm.trans hopen
    refine ⟨BitVec.eq_of_toInt_eq (hint.trans (normalResult_integral_of_active hopen')), fun hreduce hskip => ?_⟩
    rw [driven, if_pos hskip, normalResult_duty_of_active hopen' hreduce] at hdriven
    exact BitVec.eq_of_toNat_eq (Int.ofNat_inj.1 hdriven.1)
  case keeps =>
    intro hwas hlt
    have hstill := stillOpen_of_lt hwas hlt
    cases hw with
    | kept _ hopen hk hsum =>
      have hflag : t.flatTop.active = s.flatTop.active := (hactive.trans hopen).trans hwas.symm
      have hidx : t.flatTop.endIdx = s.flatTop.endIdx := BitVec.eq_of_toNat_eq (hend.trans hk)
      exact ⟨congrArg₂ FlatTop.mk hflag hidx, BitVec.eq_of_toInt_eq (hsaved.trans hsum)⟩
    | opened hnot => simp [hstill] at hnot
    | shut hnot => simp [hstill] at hnot
  case closes =>
    intro hwas hle hfall
    have hclosing := closing_of_le hwas hle
    obtain ⟨hshut, hsum⟩ := hw.shut_of_falling (by simp [stillOpen, hclosing]) hfall
    rw [sumBefore_toInt, if_pos hclosing, ← hprev] at hsum
    exact ⟨hactive.trans hshut, hint.trans hsum⟩
  case falling =>
    intro hfall hwas
    exact hactive.trans (hw.shut_of_falling (by simp [stillOpen, hwas]) hfall).1

end Sys2Proof.Proofs
end

section
/-! PROOF. The zero-crossing protocol tick by tick: the filter, INIT, the WAIT states, the locked states and the
stop request, and that every step keeps the invariant (obligations O41 to O45, O56). -/

namespace Sys2Proof.Proofs

open Sys2Proof Sys2Proof.Machine Sys2Proof.Laws Sys2Proof.Claims

/-- Settles O56: taking the event touches neither group, and every event keeps the invariant of both. -/
theorem savedLengthsStayInTheBand : Obligations.SavedLengthsStayInTheBand := by
  intro s t h ht
  obtain ⟨hv, ⟨-, rfl⟩ | ⟨e, rest, -, hrun⟩⟩ := step_next ht
  · exact h
  · have hbegin : ZcInvs (beginEvent rest s) := zcInvs_congr h rfl fun j => by cases j <;> rfl
    exact zcInvs_runEvent (s := beginEvent rest s) hv hbegin hrun

/-! ### A tick of one group -/

@[simp] theorem getZc_setZc (j : ZcId) (z : ZcInst) (s : State) : getZc (setZc j z s) j = z := by
  cases j <;> rfl

@[simp] theorem setZc_cfg (j : ZcId) (z : ZcInst) (s : State) : (setZc j z s).cfg = s.cfg := by
  cases j <;> rfl

theorem setZcOut_injective (j : ZcId) (s : State) : Function.Injective (setZcOut j · s) := by
  intro o o' h
  cases j with
  | chg => exact Prod.ext (congrArg State.zcChg h) (congrArg (fun t : State => t.pulses.chg) h)
  | inv => exact Prod.ext (congrArg State.zcInv h) (congrArg (fun t : State => t.pulses.inv) h)

/-- What a `zc_tick` leads to is what the function of its group answers. -/
theorem zcTicksTo_iff {s : State} (hv : s.cfg.valid = true) {j : ZcId} {ac : U16} {z : ZcInst} {p : ZcPulses} :
    zcTicksTo s j ac z p ↔ zcTick (zcCfg s.cfg j) ac (getZc s j) = (z, p) := by
  have hstep (rest : List Event) : step (withEvents s (.zcTick j ac :: rest)) =
      .next (setZcOut j (zcTick (zcCfg s.cfg j) ac (getZc s j)) { beginEvent rest s with ports.acRaw := ac }) := by
    rw [step_withEvents hv]
    cases j <;> rfl
  constructor
  · intro h
    exact setZcOut_injective j _ (Host.Outcome.next.inj ((hstep []).symm.trans (h [])))
  · intro h rest
    rw [hstep, h]

/-! ### The filter (45_zero_crossing_fsm.md R312) -/

theorem histFill_short : ∀ f : U2, f.toNat < 2 → (f + 1).toNat < 3 := by decide

theorem histFill_full : ∀ f : U2, 2 ≤ f.toNat → (if f.toNat < 3 then f + 1 else f) = 3 := by decide

theorem zcTick_of_not_stopReq {z : ZcInst} (h : z.stopReq = false) (c : ZcCfg) (ac : U16) :
    zcTick c ac z = zcFilterAndRun c ac z := by
  rw [zcTick, zcStopCheck, if_neg (by simp [h])]

/-- Settles O41: fewer than three samples end the tick, and so does the tick of the first average. -/
theorem filterFillsBeforeAnyCrossing : Obligations.FilterFillsBeforeAnyCrossing := by
  intro s j ac hv hstop z z1
  rw [zcTicksTo_iff hv, zcTicksTo_iff hv, zcTick_of_not_stopReq hstop]
  constructor
  · intro hfill
    have hpush : zcPushSample ac z = { z1 with histFill := z.histFill + 1 } := by
      rw [zcPushSample, if_pos (hfill.trans (by decide))]
    rw [zcFilterAndRun, hpush, if_pos (histFill_short _ hfill)]
  · intro hfill hprev
    have hpush : zcPushSample ac z = { z1 with histFill := 3 } := by
      rw [zcPushSample, histFill_full _ hfill]
    rw [zcFilterAndRun, hpush, if_neg (show ¬ (3 : U2).toNat < 3 by decide), if_pos (by simp [z1, hprev])]
    rfl

/-- The crossing detection of this tick (45 R313). -/
def detected (c : ZcCfg) (z : ZcInst) (ac : U16) : Crossing :=
  crossingOf c z.avgPrev (BitVec.ofNat 16 (average z ac)) ac

theorem average_toNat (z : ZcInst) (ac : U16) : (BitVec.ofNat 16 (average z ac)).toNat = average z ac :=
  zcAverage_toNat (zcPushSample ac z)

theorem detected_crossPos (c : ZcCfg) (z : ZcInst) (ac : U16) :
    (detected c z ac).crossPos = true ↔ crossesUp c z ac := by
  rw [detected, crossPos_iff, average_toNat, crossesUp]

theorem detected_crossNeg (c : ZcCfg) (z : ZcInst) (ac : U16) :
    (detected c z ac).crossNeg = true ↔ crossesDown c z ac := by
  rw [detected, crossNeg_iff, average_toNat, crossesDown]

/-- Past the filter, a tick is the protocol's rule (45 R314). -/
theorem zcTick_of_ready {z : ZcInst} (h : zcReady z) (c : ZcCfg) (ac : U16) :
    zcTick c ac z = zcProtocol c (detected c z ac) (filtered z ac) := by
  obtain ⟨hstop, hfill, hprev⟩ := h
  exact zcTick_running hstop hfill hprev

/-! ### INIT (45 R320) -/

theorem zcProtocol_init {c : ZcCfg} {x : Crossing} {z : ZcInst} (h : z.zcState = .init) :
    zcProtocol c x z = (if x.crossPos then { z with count := 0, zcState := .posWaitNeg1 } else z, ZcPulses.zero) := by
  rw [zcProtocol, h]

/-- Settles O42: the rule of INIT looks for a positive-going crossing only. -/
theorem initWaitsForACrossing : Obligations.InitWaitsForACrossing := by
  intro s j ac hv hr hs
  have hinit : (filtered (getZc s j) ac).zcState = .init := hs
  constructor <;> intro hx <;> rw [← detected_crossPos] at hx
  · rw [zcTicksTo_iff hv, zcTick_of_ready hr, zcProtocol_init hinit, if_pos hx]
  · rw [zcTicksTo_iff hv, zcTick_of_ready hr, zcProtocol_init hinit, if_neg hx]

/-! ### The measured length (45 R314(6)) -/

/-- The group after the filter and the count of this tick. -/
def counted (z : ZcInst) (ac : U16) : ZcInst := { filtered z ac with count := BitVec.ofNat 16 (measured z) }

theorem counted_count_toNat (z : ZcInst) (ac : U16) : (counted z ac).count.toNat = measured z := by
  have hle : measured z ≤ 65535 := Nat.min_le_left ..
  rw [counted, BitVec.toNat_ofNat, Nat.mod_eq_of_lt (by omega)]

/-- The count that the protocol makes is the measured length. -/
theorem count_filtered (z : ZcInst) (ac : U16) :
    { filtered z ac with count := incU16 (filtered z ac).count } = counted z ac := by
  have hcount : incU16 z.count = (counted z ac).count :=
    BitVec.eq_of_toNat_eq (by rw [incU16_toNat, counted_count_toNat, measured, Nat.min_comm])
  exact congrArg (fun n : U16 => { filtered z ac with count := n }) hcount

theorem inBand_counted (c : ZcCfg) (z : ZcInst) (ac : U16) :
    inBand c (counted z ac).count = true ↔ bandOk c (measured z) := by
  rw [inBand, Bool.and_eq_true, decide_eq_true_eq, decide_eq_true_eq, counted_count_toNat, bandOk]

theorem lengthsMatch_counted (c : ZcCfg) (z : ZcInst) (ac saved : U16) :
    lengthsMatch c (counted z ac).count saved = true ↔
      ((measured z : Int) - saved.toNat).natAbs ≤ c.zcMatchTol.toNat := by
  rw [lengthsMatch, decide_eq_true_eq, counted_count_toNat]

/-! ### The WAIT states (45 R321 to R324) -/

section Wait

variable {c : ZcCfg} {hit ok : Bool} {accepted : ZcInst × ZcPulses} {z : ZcInst}

theorem waitStep_accepts (hhit : hit = true) (hband : inBand c z.count = true) (hok : ok = true) :
    waitStep c hit ok accepted z = accepted := by
  simp [waitStep, hhit, hband, hok]

theorem waitStep_rejects (hhit : hit = true) (hbad : ¬ (inBand c z.count = true ∧ ok = true)) :
    waitStep c hit ok accepted z = resync z := by
  rw [waitStep, if_pos hhit]
  by_cases hband : inBand c z.count = true
  · rw [if_neg (by simp [hband]), if_pos (by simpa [hband] using hbad)]
  · rw [if_pos (by simpa using hband)]

theorem waitStep_gives_up (hhit : ¬ hit = true) (hmax : c.phaseCountMax.toNat < z.count.toNat) :
    waitStep c hit ok accepted z = resync z := by
  rw [waitStep, if_neg hhit, if_pos hmax]

theorem waitStep_counts (hhit : ¬ hit = true) (hmax : z.count.toNat ≤ c.phaseCountMax.toNat) :
    waitStep c hit ok accepted z = (z, ZcPulses.zero) := by
  rw [waitStep, if_neg hhit, if_neg (Nat.not_lt.2 hmax)]

end Wait

/-- The rule of a WAIT state whose awaited crossing is `hit` and whose match test is `ok`. -/
theorem zcTicksTo_wait {s : State} (hv : s.cfg.valid = true) {j : ZcId} {ac : U16} {hitB okB : Bool}
    {hit ok : Prop} (hhit : hitB = true ↔ hit) (hok : okB = true ↔ ok) {accepted : ZcInst} {p : ZcPulses}
    (ht : zcTick (zcCfg s.cfg j) ac (getZc s j) =
      waitStep (zcCfg s.cfg j) hitB okB (accepted, p) (counted (getZc s j) ac)) :
    (hit → bandOk (zcCfg s.cfg j) (measured (getZc s j)) → ok → zcTicksTo s j ac accepted p) ∧
    (hit → ¬ (bandOk (zcCfg s.cfg j) (measured (getZc s j)) ∧ ok) →
      zcTicksTo s j ac (resynced (getZc s j) ac) resyncPulse) ∧
    (¬ hit → (zcCfg s.cfg j).phaseCountMax.toNat < measured (getZc s j) →
      zcTicksTo s j ac (resynced (getZc s j) ac) resyncPulse) ∧
    (¬ hit → measured (getZc s j) ≤ (zcCfg s.cfg j).phaseCountMax.toNat →
      zcTicksTo s j ac (counted (getZc s j) ac) ZcPulses.zero) := by
  rw [← hhit, ← hok, ← inBand_counted _ _ ac, ← counted_count_toNat _ ac]
  simp only [zcTicksTo_iff hv, ht]
  exact ⟨waitStep_accepts, waitStep_rejects, waitStep_gives_up, waitStep_counts⟩

section WaitTicks

variable {c : ZcCfg} {ac : U16} {z : ZcInst} (hr : zcReady z)
include hr

theorem zcTick_posWaitNeg1 (hs : z.zcState = .posWaitNeg1) : zcTick c ac z =
    waitStep c (detected c z ac).crossNeg true (savePos .negWaitPos1 (counted z ac), zcPulse false)
      (counted z ac) := by
  rw [zcTick_of_ready hr, ← count_filtered]
  cases z; cases hs; rfl

theorem zcTick_negWaitPos1 (hs : z.zcState = .negWaitPos1) : zcTick c ac z =
    waitStep c (detected c z ac).crossPos true (saveNeg .posWaitNeg2 (counted z ac), zcPulse false)
      (counted z ac) := by
  rw [zcTick_of_ready hr, ← count_filtered]
  cases z; cases hs; rfl

theorem zcTick_posWaitNeg2 (hs : z.zcState = .posWaitNeg2) : zcTick c ac z =
    waitStep c (detected c z ac).crossNeg (lengthsMatch c (counted z ac).count z.posCount)
      (savePos .negWaitPos2 (counted z ac), zcPulse false) (counted z ac) := by
  rw [zcTick_of_ready hr, ← count_filtered]
  cases z; cases hs; rfl

theorem zcTick_negWaitPos2 (hs : z.zcState = .negWaitPos2) : zcTick c ac z =
    waitStep c (detected c z ac).crossPos (lengthsMatch c (counted z ac).count z.negCount)
      ({ saveNeg .confirmNegPos (counted z ac) with outputting := true, confirmLeft := c.zcConfirmTicks },
        zcPulse true) (counted z ac) := by
  rw [zcTick_of_ready hr, ← count_filtered]
  cases z; cases hs; rfl

end WaitTicks

/-- Settles O43: each state awaits its crossing, and the second cycle tests its lengths against the first's. -/
theorem waitStates : Obligations.WaitStates := by
  intro s j ac hv hr z c n zf w rule
  have hdown := detected_crossNeg c z ac
  have hup := detected_crossPos c z ac
  have hany : true = true ↔ True := iff_of_true rfl trivial
  refine ⟨fun hs => ?_, fun hs => ?_, fun hs => ?_, fun hs => ?_⟩
  · exact zcTicksTo_wait hv hdown hany (zcTick_posWaitNeg1 hr hs)
  · exact zcTicksTo_wait hv hup hany (zcTick_negWaitPos1 hr hs)
  · exact zcTicksTo_wait hv hdown (lengthsMatch_counted c z ac z.posCount) (zcTick_posWaitNeg2 hr hs)
  · exact zcTicksTo_wait hv hup (lengthsMatch_counted c z ac z.negCount) (zcTick_negWaitPos2 hr hs)

/-! ### The locked states (45 R325, R326) -/

section Locked

variable {c : ZcCfg} {x : Crossing} {z : ZcInst}

/-- The crossing that ends the half-cycle of a locked state. -/
def awaited (x : Crossing) (z : ZcInst) : Prop :=
  (if posHalf z.zcState then x.crossNeg else x.crossPos) = true

theorem lockedStep_missed (h : ¬ awaited x z) : lockedStep c x z = lockedRest c z := if_neg h

theorem lockedStep_premature (h : awaited x z) (hearly : z.count.toNat + c.winStart.toNat < expectedLen z) :
    lockedStep c x z = if x.spike then resync z else lockedRest c z :=
  (if_pos h).trans (if_pos (by omega))

theorem lockedStep_accepts (h : awaited x z) (hearly : ¬ z.count.toNat + c.winStart.toNat < expectedLen z)
    (hlate : z.count.toNat ≤ expectedLen z + c.winEnd.toNat) (hband : inBand c z.count = true) :
    lockedStep c x z = lockedAccept c z := by
  rw [awaited] at h
  rw [lockedStep, if_pos h, if_neg (by omega), if_pos hlate, if_neg (by simp [hband])]

theorem lockedStep_rejects (h : awaited x z) (hearly : ¬ z.count.toNat + c.winStart.toNat < expectedLen z)
    (hbad : ¬ (z.count.toNat ≤ expectedLen z + c.winEnd.toNat ∧ inBand c z.count = true)) :
    lockedStep c x z = resync z := by
  rw [awaited] at h
  rw [lockedStep, if_pos h, if_neg (by omega)]
  split
  · next hlate => exact if_pos (by simpa [hlate] using hbad)
  · rfl

end Locked

/-- A locked tick without an accepted crossing: the count runs and a CONFIRM state dwells (45 R326). -/
def rested (z : ZcInst) (ac : U16) : ZcInst :=
  { filtered z ac with
    count := BitVec.ofNat 16 (measured z)
    confirmLeft := if confirming z.zcState then z.confirmLeft - 1 else z.confirmLeft
    zcState := if confirming z.zcState ∧ z.confirmLeft = 1 then
        (if posHalf z.zcState then .posDetectOc else .negDetectOc) else z.zcState }

theorem dwell_counted {c : ZcCfg} {z : ZcInst} (h : ZcInv c z) (ac : U16) : dwell (counted z ac) = rested z ac := by
  have hconf := h.confirm
  have hdec : confirming z.zcState = true → decU16 z.confirmLeft = z.confirmLeft - 1 := fun hs => by
    rw [if_pos hs] at hconf
    exact decU16_of_ne_zero fun h0 => by simp [h0] at hconf
  obtain ⟨st, count, p, q, out, left⟩ := z
  cases st with
  | confirmNegPos | confirmPosNeg =>
    simp [dwell, counted, rested, filtered, confirming, posHalf, hdec rfl, BitVec.sub_eq_iff_eq_add]
  | _ => rfl

theorem lockedRest_gives_up {c : ZcCfg} {z : ZcInst} {ac : U16}
    (hmax : expectedLen z + c.winEnd.toNat < measured z) :
    lockedRest c (counted z ac) = (resynced z ac, resyncPulse) :=
  if_pos (by rw [counted_count_toNat]; exact hmax)

theorem lockedRest_rests {c : ZcCfg} {z : ZcInst} (h : ZcInv c z) {ac : U16}
    (hmax : measured z ≤ expectedLen z + c.winEnd.toNat) :
    lockedRest c (counted z ac) = (rested z ac, ZcPulses.zero) := by
  rw [← dwell_counted h]
  exact if_neg (by rw [counted_count_toNat]; exact Nat.not_lt.2 hmax)

theorem awaited_counted (c : ZcCfg) (z : ZcInst) (ac : U16) : awaited (detected c z ac) (counted z ac) ↔
    if posHalf z.zcState then crossesDown c z ac else crossesUp c z ac := by
  rw [← detected_crossNeg, ← detected_crossPos]
  exact iff_of_eq (apply_ite (· = true) _ _ _)

theorem lockedAccept_eq (c : ZcCfg) (z : ZcInst) : lockedAccept c z =
    (if posHalf z.zcState then { savePos .confirmPosNeg z with confirmLeft := c.zcConfirmTicks }
      else { saveNeg .confirmNegPos z with confirmLeft := c.zcConfirmTicks }, zcPulse !posHalf z.zcState) := by
  unfold lockedAccept
  cases posHalf z.zcState <;> rfl

theorem zcTick_locked {z : ZcInst} (hr : zcReady z) (hl : locked z.zcState = true) (c : ZcCfg) (ac : U16) :
    zcTick c ac z = lockedStep c (detected c z ac) (counted z ac) := by
  rw [zcTick_of_ready hr, ← count_filtered]
  obtain ⟨st⟩ := z
  cases st with
  | confirmNegPos | posDetectOc | confirmPosNeg | negDetectOc => rfl
  | init | posWaitNeg1 | negWaitPos1 | posWaitNeg2 | negWaitPos2 => cases hl

/-- Settles O44: a tick without an accepted crossing rests unless the window is over, and a premature one comes
before the end of the window. -/
theorem lockedStates : Obligations.LockedStates := by
  intro s j ac hv hr hinv hl z c n pos expected hit early spike w rested'
  have hcount : (counted z ac).count.toNat = n := counted_count_toNat z ac
  have hto {o : ZcInst} {p : ZcPulses} (h : lockedStep c (detected c z ac) (counted z ac) = (o, p)) :
      zcTicksTo s j ac o p := (zcTicksTo_iff hv).2 ((zcTick_locked hr hl c ac).trans h)
  have hhit : awaited (detected c z ac) (counted z ac) ↔ hit := awaited_counted c z ac
  have hearly : (counted z ac).count.toNat + c.winStart.toNat < expectedLen (counted z ac) ↔ early :=
    iff_of_eq (congrArg (· + c.winStart.toNat < expected) hcount)
  have hwin : (counted z ac).count.toNat ≤ expectedLen (counted z ac) + c.winEnd.toNat ↔
      n ≤ expected + c.winEnd.toNat := iff_of_eq (congrArg (· ≤ expected + c.winEnd.toNat) hcount)
  have hband : inBand c (counted z ac).count = true ↔ bandOk c n := inBand_counted c z ac
  have hspike : (detected c z ac).spike = true ↔ spike := decide_eq_true_iff
  rw [← hhit, ← hearly, ← hspike, ← hband, ← hwin]
  refine ⟨fun hx he hw hb => ?accepts, fun hx he hbad => ?rejects, fun hx he hsp => ?spike,
    fun hx he hsp => ?ignores, fun hx hlate => ?overrun, fun hx hw => ?counts⟩
  case accepts => exact hto ((lockedStep_accepts hx he hw hb).trans (lockedAccept_eq c _))
  case rejects => exact hto (lockedStep_rejects hx he hbad)
  case spike => exact hto ((lockedStep_premature hx he).trans (if_pos hsp))
  case ignores =>
    have hw : n ≤ expected + c.winEnd.toNat := by
      have := hearly.1 he
      omega
    exact hto ((lockedStep_premature hx he).trans ((if_neg hsp).trans (lockedRest_rests hinv hw)))
  case overrun => exact hto ((lockedStep_missed hx).trans (lockedRest_gives_up hlate))
  case counts => exact hto ((lockedStep_missed hx).trans (lockedRest_rests hinv (hwin.1 hw)))

/-! ### The stop request (45 R319) -/

theorem exec_zcStop (j : ZcId) (s : State) :
    exec (if j = .chg then .zcStopChg else .zcStopInv) s = .next (setZc j { getZc s j with stopReq := true } s) := by
  cases j <;> rfl

/-- A tick from INIT without a stop request re-synchronises nothing. -/
theorem zcTick_init_zcResync {z : ZcInst} (hstop : z.stopReq = false) (hs : z.zcState = .init) (c : ZcCfg)
    (ac : U16) : (zcTick c ac z).2.zcResync = false := by
  have hcheck : zcStopCheck z = z := by simp [zcStopCheck, hstop]
  obtain hz | hz | hz := zcTick_cases c ac z <;> rw [hz]
  · rfl
  · rfl
  · rw [hcheck, zcProtocol_init (by exact hs)]
    rfl

/-- Settles O45: the stop check makes the tick that of the group in INIT. -/
theorem stopWaitsForTheTick : Obligations.StopWaitsForTheTick := by
  intro s j ac hv
  refine ⟨_, exec_zcStop j s, rfl, fun z p => ?_, fun z p h => ?_⟩
  · rw [zcTicksTo_iff (by simpa using hv), zcTicksTo_iff (by simpa using hv)]
    simp only [setZc_cfg, getZc_setZc]
    rfl
  · rw [zcTicksTo_iff (by simpa using hv)] at h
    simp only [setZc_cfg, getZc_setZc] at h
    have hinit := zcTick_init_zcResync (z := resetToInit { getZc s j with stopReq := false }) rfl rfl
      (zcCfg s.cfg j) ac
    exact (congrArg (fun o => o.2.zcResync) h).symm.trans hinit

end Sys2Proof.Proofs
end

section
/-! PROOF. The clamp, one step of the escalation machine, and the overload invariant (obligations O29, O37, O38,
O55). -/

namespace Sys2Proof.Proofs

open Sys2Proof Sys2Proof.Machine Sys2Proof.Laws Sys2Proof.Claims

/-- Settles O55: taking the event touches nothing the invariant looks at, and every event keeps it. -/
theorem overloadStaysBounded : Obligations.OverloadStaysBounded := by
  intro s t h hstep
  obtain ⟨hv, ⟨-, rfl⟩ | ⟨e, rest, -, hrun⟩⟩ := step_next hstep
  · exact h
  · exact ovlInv_runEvent (s := beginEvent rest s) hv (ovlInv_congr h rfl rfl) hrun

/-- Settles O29: each control write is its one operation. -/
theorem controlWritesComplete : Obligations.ControlWritesComplete := fun s =>
  ⟨rfl, exec_zcStop .chg s, exec_zcStop .inv s, rfl, rfl⟩

/-! ### The clamp (46_overload.md R361) -/

/-- The average the clamp rectifies around, as an integer (46 R362). -/
theorem clampAverage_toNat (s : State) : ((clampAverage s).toNat : Int) =
    if s.ports.iAvgValid then (s.ports.iCycleAvg.toNat : Int) else s.cfg.ovl.iZeroNominal.toNat := by
  unfold clampAverage
  split <;> rfl

/-- Settles O37: the event samples its ports, then clamps. -/
theorem clampTick : Obligations.ClampTick := by
  intro s i avg valid rest hv b zero thr
  have hrect : clampRect b = ((i.toNat : Int) - zero).natAbs := by
    rw [clampRect, clampAverage_toNat]
    rfl
  have hthr : clampThreshold b = thr := rfl
  rw [step_withEvents hv]
  show Host.Outcome.next (sampleTick b) = _
  rw [sampleTick_spec, hrect, hthr]
  split <;> rfl

/-! ### What one escalation step decides on (46 R371, R375) -/

/-- The overload condition of the step (46 R371). -/
abbrev overloaded (s : State) : Prop :=
  s.cfg.ovl.rmsThreshold.toNat < s.ports.iRms.toNat ∨ s.ovl.event = true

/-- Does a step of an overload phase clear the episode (46 R375)? -/
abbrev clearsNow (s : State) : Prop :=
  ¬ overloaded s ∧ s.cfg.ovl.resetCount.toNat ≤ s.ovl.resetCount.toNat + 1

theorem overloadCond_iff (s : State) : overloadCond s = true ↔ overloaded s := by
  simp [overloadCond]

/-- The state of an overload phase after the step's counting (46 R373 to R375). -/
def afterCount (s : State) : State := ovlCount (overloadCond s) (ovlStepBegin s)

theorem afterCount_cycle (s : State) :
    (afterCount s).ovl.cycleCount.toNat = min (s.ovl.cycleCount.toNat + 1) 65535 :=
  incU16_toNat s.ovl.cycleCount

/-- A count below a 16-bit timeout is counted exactly. -/
theorem afterCount_cycle_of_lt {s : State} {limit : U16} (h : s.ovl.cycleCount.toNat < limit.toNat) :
    (afterCount s).ovl.cycleCount.toNat = s.ovl.cycleCount.toNat + 1 := by
  have hmax := limit.isLt
  rw [afterCount_cycle]
  omega

theorem afterCount_retry (s : State) : (afterCount s).ovl.retryCount.toNat = s.ovl.retryCount.toNat - 1 :=
  decU16_toNat s.ovl.retryCount

theorem afterCount_reset_of_overloaded {s : State} (h : overloaded s) : (afterCount s).ovl.resetCount = 0 :=
  if_pos ((overloadCond_iff s).2 h)

theorem afterCount_reset_of_not {s : State} (h : ¬ overloaded s) :
    (afterCount s).ovl.resetCount.toNat = min (s.ovl.resetCount.toNat + 1) 65535 :=
  (congrArg BitVec.toNat (if_neg (mt (overloadCond_iff s).1 h))).trans (incU16_toNat s.ovl.resetCount)

/-- A count that saturates still reaches every 16-bit timeout. -/
theorem timeout_le_afterCount (s : State) (limit : U16) :
    limit.toNat ≤ (afterCount s).ovl.cycleCount.toNat ↔ limit.toNat ≤ s.ovl.cycleCount.toNat + 1 := by
  have hlt := limit.isLt
  rw [afterCount_cycle]
  omega

theorem reset_le_afterCount {s : State} (hv : s.cfg.valid = true) :
    s.cfg.ovl.resetCount.toNat ≤ (afterCount s).ovl.resetCount.toNat ↔ clearsNow s := by
  obtain ⟨-, -, hpos⟩ := valid_ovlBounds hv
  have hlt := s.cfg.ovl.resetCount.isLt
  by_cases h : overloaded s
  · rw [afterCount_reset_of_overloaded h]
    exact ⟨fun hle => absurd (hpos.trans hle) (by decide), fun hc => absurd h hc.1⟩
  · rw [afterCount_reset_of_not h]
    exact ⟨fun hle => ⟨h, by omega⟩, fun ⟨_, hle⟩ => by omega⟩

/-- `zc_task` in SHORT_OVERLOAD, on the numbers before the step (46 R373, R375). -/
theorem zcTask_loose {s : State} (hv : s.cfg.valid = true) (hs : s.ovl.state = .shortOverload) :
    zcTask s = if clearsNow s then ovlEarlyClear (afterCount s)
      else if s.cfg.ovl.irmsTimeout.toNat ≤ s.ovl.cycleCount.toNat + 1 then ovlTighten (afterCount s)
      else afterCount s := by
  simp only [← reset_le_afterCount hv, ← timeout_le_afterCount]
  exact zcTask_short hs

/-- `zc_task` in SUSTAINED_OVERLOAD, on the numbers before the step (46 R374, R375). -/
theorem zcTask_tight {s : State} (hv : s.cfg.valid = true) (hs : s.ovl.state = .sustainedOverload) :
    zcTask s = if clearsNow s then ovlEarlyClear (afterCount s)
      else if s.cfg.ovl.vdsTimeout.toNat ≤ s.ovl.cycleCount.toNat + 1 then raiseFault .ovlShutdown (afterCount s)
      else afterCount s := by
  simp only [← reset_le_afterCount hv, ← timeout_le_afterCount]
  exact zcTask_sustained hs

/-! ### What every escalation step does (46 R370) -/

/-- `t` is `s` but for the overload group, whose event is consumed and whose skip count stays. -/
structure EscalationFrame (s t : State) : Prop where
  frame : t = { s with ovl := t.ovl }
  event : t.ovl.event = false
  skip : t.ovl.skipNextPulseCount = s.ovl.skipNextPulseCount

theorem escalationFrame_zcTask (s : State) : EscalationFrame s (zcTask s) := by
  cases hs : s.ovl.state with
  | none => rw [zcTask_none hs, ovlStart]; split_ifs <;> exact ⟨rfl, rfl, rfl⟩
  | shortOverload => rw [zcTask_short hs, ovlLoose]; split_ifs <;> exact ⟨rfl, rfl, rfl⟩
  | sustainedOverload => rw [zcTask_sustained hs, ovlTight]; split_ifs <;> exact ⟨rfl, rfl, rfl⟩
  | shutdown => rw [zcTask_shutdown hs]; exact ⟨rfl, rfl, rfl⟩

/-! ### One escalation step by its table (46 R380) -/

/-- The step leaves no episode (46 R375). -/
def EpisodeCleared (s t : State) : Prop :=
  t.ovl.state = .none ∧ t.ovl.vdsThresholdActive = false ∧ t.ovl.cycleCount = 0 ∧ t.ovl.resetCount = 0 ∧
    t.ovl.retryCount.toNat = s.ovl.retryCount.toNat - 1

/-- The step counts on in its phase (46 R373, R374). -/
def EpisodeCounted (s t : State) : Prop :=
  t.ovl.cycleCount.toNat = s.ovl.cycleCount.toNat + 1 ∧ (overloaded s → t.ovl.resetCount = 0) ∧
    (¬ overloaded s → t.ovl.resetCount.toNat = s.ovl.resetCount.toNat + 1) ∧
    t.ovl.retryCount.toNat = s.ovl.retryCount.toNat - 1

/-- With both counts below their limits, counting is exact. -/
theorem episodeCounted_afterCount {s : State} (h : OvlInv s) {limit : U16}
    (hlimit : s.ovl.cycleCount.toNat < limit.toNat) : EpisodeCounted s (afterCount s) := by
  have hreset := h.reset_count
  have hmax := s.cfg.ovl.resetCount.isLt
  refine ⟨afterCount_cycle_of_lt hlimit, afterCount_reset_of_overloaded, fun hno => ?_, afterCount_retry s⟩
  rw [afterCount_reset_of_not hno]
  omega

theorem episodeCleared_ovlEarlyClear (s : State) : EpisodeCleared s (ovlEarlyClear (afterCount s)) :=
  ⟨rfl, rfl, rfl, rfl, afterCount_retry s⟩

/-- Outside the tight states the loose threshold is in force (46 R363). -/
theorem loose_threshold {s : State} (h : OvlInv s) (htight : s.ovl.state ≠ .sustainedOverload)
    (hdown : s.ovl.state ≠ .shutdown) : s.ovl.vdsThresholdActive = false :=
  Bool.eq_false_iff.2 fun hon => (h.threshold.1 hon).elim htight hdown

theorem zcTask_none_quiet {s : State} (h : OvlInv s) (hs : s.ovl.state = .none) (hno : ¬ overloaded s) :
    EpisodeCleared s (zcTask s) := by
  obtain ⟨hcycle, hreset⟩ := h.none_clear hs
  have hthr := loose_threshold h (by simp [hs]) (by simp [hs])
  rw [zcTask_none hs, if_neg (mt (overloadCond_iff s).1 hno)]
  exact ⟨hs, hthr, hcycle, hreset, decU16_toNat _⟩

/-- An episode starts, tight if the lockout still runs after this step's count (46 R372, R377). -/
theorem zcTask_none_overloaded {s : State} (hs : s.ovl.state = .none) (hcond : overloaded s) :
    (zcTask s).ovl.cycleCount = 0 ∧ (zcTask s).ovl.resetCount = 0 ∧
    (zcTask s).ovl.retryCount.toNat = s.ovl.retryCount.toNat - 1 ∧
    if s.ovl.retryCount.toNat - 1 = 0 then
      (zcTask s).ovl.state = .shortOverload ∧ (zcTask s).ovl.vdsThresholdActive = false
    else (zcTask s).ovl.state = .sustainedOverload ∧ (zcTask s).ovl.vdsThresholdActive = true := by
  have hretry := decU16_toNat s.ovl.retryCount
  have hzero : (ovlStepBegin s).ovl.retryCount = 0 ↔ s.ovl.retryCount.toNat - 1 = 0 := by
    rw [← hretry]
    exact toNat_eq_zero_iff.symm
  rw [zcTask_none hs, if_pos ((overloadCond_iff s).2 hcond), ovlStart]
  split
  · next hrun => exact ⟨rfl, rfl, hretry, by rw [if_pos (hzero.1 hrun)]; exact ⟨rfl, rfl⟩⟩
  · next hrun => exact ⟨rfl, rfl, hretry, by rw [if_neg (mt hzero.2 hrun)]; exact ⟨rfl, rfl⟩⟩

theorem zcTask_clears {s : State} (hv : s.cfg.valid = true)
    (hs : s.ovl.state = .shortOverload ∨ s.ovl.state = .sustainedOverload) (hclear : clearsNow s) :
    EpisodeCleared s (zcTask s) := by
  obtain hs | hs := hs
  · rw [zcTask_loose hv hs, if_pos hclear]; exact episodeCleared_ovlEarlyClear s
  · rw [zcTask_tight hv hs, if_pos hclear]; exact episodeCleared_ovlEarlyClear s

theorem zcTask_loose_stays {s : State} (hv : s.cfg.valid = true) (h : OvlInv s)
    (hs : s.ovl.state = .shortOverload) (hno : ¬ clearsNow s) :
    if s.cfg.ovl.irmsTimeout.toNat ≤ s.ovl.cycleCount.toNat + 1 then
      (zcTask s).ovl.state = .sustainedOverload ∧ (zcTask s).ovl.vdsThresholdActive = true ∧
      (zcTask s).ovl.cycleCount = 0 ∧ (zcTask s).ovl.resetCount = 0 ∧
      (zcTask s).ovl.retryCount = s.cfg.ovl.retryLockout
    else (zcTask s).ovl.state = .shortOverload ∧ (zcTask s).ovl.vdsThresholdActive = false ∧
      EpisodeCounted s (zcTask s) := by
  have hthr := loose_threshold h (by simp [hs]) (by simp [hs])
  have hcounted := episodeCounted_afterCount h (h.loose_count hs)
  rw [zcTask_loose hv hs, if_neg hno]
  split
  · exact ⟨rfl, rfl, rfl, rfl, rfl⟩
  · exact ⟨hs, hthr, hcounted⟩

theorem zcTask_tight_stays {s : State} (hv : s.cfg.valid = true) (h : OvlInv s)
    (hs : s.ovl.state = .sustainedOverload) (hno : ¬ clearsNow s) :
    ((zcTask s).ovl.state = if s.cfg.ovl.vdsTimeout.toNat ≤ s.ovl.cycleCount.toNat + 1 then .shutdown
      else .sustainedOverload) ∧
    (zcTask s).ovl.vdsThresholdActive = true ∧ EpisodeCounted s (zcTask s) := by
  have hthr := h.threshold.2 (.inl hs)
  have hcounted := episodeCounted_afterCount h (h.tight_count hs)
  rw [zcTask_tight hv hs, if_neg hno]
  split
  · exact ⟨rfl, hthr, hcounted⟩
  · exact ⟨hs, hthr, hcounted⟩

theorem zcTask_shutdown_stays {s : State} (h : OvlInv s) (hs : s.ovl.state = .shutdown) :
    (zcTask s).ovl.state = .shutdown ∧ (zcTask s).ovl.vdsThresholdActive = true ∧
    (zcTask s).ovl.cycleCount = s.ovl.cycleCount ∧ (zcTask s).ovl.resetCount = s.ovl.resetCount ∧
    (zcTask s).ovl.retryCount.toNat = s.ovl.retryCount.toNat - 1 := by
  rw [zcTask_shutdown hs]
  exact ⟨hs, h.threshold.2 (.inr hs), rfl, rfl, decU16_toNat _⟩

/-- The state in which an escalation step runs: the event taken, its sample on the port. -/
def rmsSampled (r : U16) (rest : List Event) (s : State) : State :=
  { beginEvent rest s with ports.iRms := r }

theorem step_zcTask {s : State} (hv : s.cfg.valid = true) {r : U16} {rest : List Event}
    (he : s.events = .zcTask r :: rest) : step s = .next (zcTask (rmsSampled r rest s)) :=
  step_event hv he

/-- Settles O38: the step's frame and its table, row by row. -/
theorem escalationStep : Obligations.EscalationStep := by
  intro s irms rest hv hs
  have hinv : OvlInv (rmsSampled irms rest s) := ovlInv_congr hs rfl rfl
  have hvu : (rmsSampled irms rest s).cfg.valid = true := hv
  obtain ⟨hframe, hevent, hskip⟩ := escalationFrame_zcTask (rmsSampled irms rest s)
  exact ⟨zcTask (rmsSampled irms rest s), step_zcTask (s := withEvents s (.zcTask irms :: rest)) hv rfl,
    hframe, hevent, hskip, zcTask_none_quiet hinv, zcTask_none_overloaded (s := rmsSampled irms rest s),
    zcTask_clears hvu, zcTask_loose_stays hvu hinv, zcTask_tight_stays hvu hinv, zcTask_shutdown_stays hinv⟩

end Sys2Proof.Proofs
end

section
/-! PROOF. Into SHUTDOWN and out of it: what each event leaves of an overload episode, the way in under a lasting
condition and its lower bound, and the two ways out (obligations O39, O40). -/

namespace Sys2Proof.Proofs

open Sys2Proof Sys2Proof.Machine Sys2Proof.Laws Sys2Proof.Claims

/-! ### What the events outside the escalation machine leave of an episode (46_overload.md R370, R379) -/

/-- The group `o` is in the episode of `g`: only the skip count and the event may differ. -/
structure EpisodeKept (g o : OvlGroup) : Prop where
  state : o.state = g.state
  cycle : o.cycleCount = g.cycleCount
  retry : o.retryCount = g.retryCount

/-- The group `o` is out of any episode, with no more lockout than `g`. -/
structure EpisodeEnded (g o : OvlGroup) : Prop where
  state : o.state = .none
  retry : o.retryCount.toNat ≤ g.retryCount.toNat

/-- The two events that end an episode outside the escalation machine: `hw_reset`, and a write of 1 to bit 0 of
OVL_CTRL (46 R379). -/
def ResetEvent (c : Cfg) (e : Event) : Prop :=
  e = .hwReset ∨ ∃ v : U32, e = .busWrite (c.regBase + 0x28) 4 v ∧ v.getLsbD 0 = true

theorem episodeKept_of_eq {g o : OvlGroup} (h : o = g) : EpisodeKept g o := by
  subst h
  exact ⟨rfl, rfl, rfl⟩

theorem episodeKept_tickFrame {s t : State} (h : TickFrame s t) : EpisodeKept s.ovl t.ovl := by
  obtain ho | ⟨-, ho⟩ := h.ovl <;> rw [ho] <;> exact ⟨rfl, rfl, rfl⟩

@[simp] theorem tickZc_ovl (j : ZcId) (s : State) : (tickZc j s).ovl = s.ovl := by cases j <;> rfl

theorem episodeKept_pwmTick {s t : State} (h : pwmTick s = .next t) : EpisodeKept s.ovl t.ovl := by
  obtain ⟨-, u, hu, rfl⟩ | ⟨-, rfl⟩ | ⟨-, rfl⟩ := pwmTick_next h
  · rw [tickZc_ovl]; exact episodeKept_tickFrame (tickFrame_engTick hu)
  · rw [tickZc_ovl]; exact ⟨rfl, rfl, rfl⟩
  · exact ⟨rfl, rfl, rfl⟩

theorem episodeKept_sampleTick (s : State) (p : Ports) :
    EpisodeKept s.ovl (sampleTick { s with ports := p }).ovl := by
  rw [sampleTick_spec]
  split <;> exact ⟨rfl, rfl, rfl⟩

/-- Of the control writes only `ovl_reset` touches the overload group. -/
theorem ovl_exec_control {i : Instr} (hi : i.format = .ctrl32) (hne : i ≠ .ovlReset) {s t : State}
    (h : exec i s = .next t) : t.ovl = s.ovl := by
  cases i, hi using ctrl32_cases with
  | ovlReset => exact absurd rfl hne
  | zcStopChg => cases h; rfl
  | zcStopInv => cases h; rfl
  | clrFbReversed => cases h; rfl
  | clrOutShorted => cases h; rfl

theorem ovlReset_mem {o : Nat} {v : U32} (h : .ovlReset ∈ decodeCtrl o v) : o = 0x28 ∧ v.getLsbD 0 = true := by
  obtain ⟨ho, hw⟩ : o = 0x28 ∧ v &&& 1 = 1 := by simpa [decodeCtrl_cases] using h
  exact ⟨ho, (and_twoPow_eq v 0 (by decide)).1 hw⟩

/-- A host write that touches the overload group is a write of `ovl_reset` (20_memory.md R81). -/
theorem episode_busWrite {a n : Nat} {v : U32} {s t : State} (h : busWrite a n v s = .next t) :
    t.ovl = s.ovl ∨ (EpisodeEnded s.ovl t.ovl ∧ a = s.cfg.regBase + 0x28 ∧ n = 4 ∧ v.getLsbD 0 = true) := by
  refine or_iff_not_imp_left.2 fun hchange => ?_
  obtain ⟨o, ho, hmem⟩ := mem_of_busWrite (P := fun u => u.ovl = s.ovl) (i₀ := .ovlReset) id
    (fun i hi hne u w hu hw => (ovl_exec_control hi hne hw).trans hu) rfl hchange h
  obtain ⟨rfl, hbit⟩ := ovlReset_mem hmem
  obtain ⟨rfl, rfl⟩ := access_of_busOffset ho
  rw [busWrite_at v (by decide) (by decide), regWrite_ovlCtrl, if_pos hbit] at h
  cases h
  exact ⟨⟨rfl, le_rfl⟩, rfl, rfl, hbit⟩

/-- Outside `zc_task`, an event leaves the episode as it is, or is one of the two that end it. -/
theorem episode_runEvent {e : Event} {s t : State} (h : runEvent e s = .next t) (htask : ∀ r, e ≠ .zcTask r) :
    EpisodeKept s.ovl t.ovl ∨ (EpisodeEnded s.ovl t.ovl ∧ ResetEvent s.cfg e) := by
  cases e with
  | zcTask r => exact absurd rfl (htask r)
  | pwmTick => have hk := episodeKept_pwmTick h; exact .inl hk
  | engTick => have hk := episodeKept_tickFrame (tickFrame_engTick h); exact .inl hk
  | zcTick j => cases h; exact .inl (episodeKept_of_eq (tickZc_ovl j _))
  | sampleTick => cases h; exact .inl (episodeKept_sampleTick s _)
  | busRead => cases h; exact .inl ⟨rfl, rfl, rfl⟩
  | hwReset => cases h; exact .inr ⟨⟨rfl, Nat.zero_le _⟩, .inl rfl⟩
  | busWrite a n v =>
    obtain hk | ⟨hend, rfl, rfl, hbit⟩ := episode_busWrite h
    · exact .inl (episodeKept_of_eq hk)
    · exact .inr ⟨hend, .inr ⟨v, rfl, hbit⟩⟩

/-! ### The ways out of SHUTDOWN (46 R376, 40_engine_commands.md R142) -/

/-- From SHUTDOWN every event but the two resets leads to SHUTDOWN. -/
theorem shutdown_runEvent {e : Event} {s t : State} (hs : s.ovl.state = .shutdown) (h : runEvent e s = .next t) :
    t.ovl.state = .shutdown ∨ (t.ovl.state = .none ∧ ResetEvent s.cfg e) := by
  by_cases htask : ∀ r, e ≠ .zcTask r
  · obtain hk | ⟨hend, hreset⟩ := episode_runEvent h htask
    · exact .inl (hk.state.trans hs)
    · exact .inr ⟨hend.state, hreset⟩
  · push Not at htask
    obtain ⟨r, rfl⟩ := htask
    cases h
    exact .inl (by rw [zcTask_shutdown (by exact hs)]; exact hs)

theorem execNone_stays_idle {s t : State} (hi : s.seq.engState = .idle) (h : exec .none s = .next t) :
    t.seq.engState = .idle := by
  rw [execNone_of_idle hi] at h
  cases h
  exact hi

/-- In SHUTDOWN no command of the latch starts an idle engine (40 R142). -/
theorem engTick_stays_idle {s t : State} (hs : s.ovl.state = .shutdown) (hi : s.seq.engState = .idle)
    (h : engTick s = .next t) : t.seq.engState = .idle := by
  obtain ⟨i, hcmd, -, hexec⟩ | hexec := engTick_next h
  · obtain ⟨-, rfl⟩ | ⟨-, -, rfl⟩ | ⟨-, hnone | hnone⟩ | ⟨k, -, -, hok, -⟩ | ⟨-, hnormal, -⟩ :=
      exec_command_cases hcmd hexec
    · rfl
    · rfl
    · exact execNone_stays_idle hi hnone
    · exact execNone_stays_idle (s := emptyLatch s) hi hnone
    · exact absurd hs ((startAllowed_iff s).1 hok).2.2
    · exact nomatch hi.symm.trans hnormal
  · exact execNone_stays_idle (s := emptyLatch s) hi hexec

theorem pwmTick_stays_idle {s t : State} (hs : s.ovl.state = .shutdown) (hi : s.seq.engState = .idle)
    (h : pwmTick s = .next t) : t.seq.engState = .idle := by
  obtain ⟨-, u, hu, rfl⟩ | ⟨-, rfl⟩ | ⟨-, rfl⟩ := pwmTick_next h
  · rw [(sameEngine_tickZc .inv u).seq]; exact engTick_stays_idle hs hi hu
  · exact hi
  · exact hi

/-- In SHUTDOWN no event starts an idle engine. -/
theorem runEvent_stays_idle {e : Event} {s t : State} (hs : s.ovl.state = .shutdown)
    (hi : s.seq.engState = .idle) (h : runEvent e s = .next t) : t.seq.engState = .idle := by
  have hframe (h : SameEngine s t) : t.seq.engState = .idle := by rw [h.seq]; exact hi
  have hports (p : Ports) : { s with ports := p }.ovl.state = .shutdown ∧
      { s with ports := p }.seq.engState = .idle := ⟨hs, hi⟩
  cases e with
  | pwmTick => exact pwmTick_stays_idle (hports _).1 (hports _).2 h
  | engTick => exact engTick_stays_idle (hports _).1 (hports _).2 h
  | hwReset => cases h; rfl
  | zcTick => exact hframe (writerFrame_runEvent h nofun nofun nofun).engine
  | sampleTick => exact hframe (writerFrame_runEvent h nofun nofun nofun).engine
  | zcTask => exact hframe (writerFrame_runEvent h nofun nofun nofun).engine
  | busWrite => exact hframe (writerFrame_runEvent h nofun nofun nofun).engine
  | busRead => exact hframe (writerFrame_runEvent h nofun nofun nofun).engine

/-- Settles O40: the two resets are the only ways out, and in SHUTDOWN no start is allowed. -/
theorem shutdownIsLeftOnlyByReset : Obligations.ShutdownIsLeftOnlyByReset := by
  intro s t e rest hs hstep
  have hrun := runEvent_of_step hstep
  refine ⟨?_, fun hi => runEvent_stays_idle (s := beginEvent rest s) hs hi hrun⟩
  obtain hstay | ⟨hnone, hreset | hwrite⟩ := shutdown_runEvent (s := beginEvent rest s) hs hrun
  · exact .inl hstay
  · exact .inr (.inl hreset)
  · exact .inr (.inr ⟨hnone, hwrite⟩)

/-! ### The way into SHUTDOWN under a lasting condition (46 R381) -/

/-- The overload group after `k` steps of a condition that lasts, from NONE with the lockout run out. -/
inductive Lasting (c : OvlCfg) : Nat → OvlGroup → Prop
  | start {g : OvlGroup} (hs : g.state = .none) (hr : g.retryCount = 0) : Lasting c 0 g
  | loose {k : Nat} {g : OvlGroup} (hs : g.state = .shortOverload) (hk : k = 1 + g.cycleCount.toNat)
      (hle : k ≤ c.irmsTimeout.toNat) : Lasting c k g
  | tight {k : Nat} {g : OvlGroup} (hs : g.state = .sustainedOverload)
      (hk : k = 1 + c.irmsTimeout.toNat + g.cycleCount.toNat)
      (hle : k ≤ c.irmsTimeout.toNat + c.vdsTimeout.toNat) : Lasting c k g
  | down {k : Nat} {g : OvlGroup} (hs : g.state = .shutdown)
      (hlt : c.irmsTimeout.toNat + c.vdsTimeout.toNat < k) : Lasting c k g

/-- The step number says the state. -/
theorem Lasting.state {c : OvlCfg} {k : Nat} {g : OvlGroup} (h : Lasting c k g) :
    (1 ≤ k → k ≤ c.irmsTimeout.toNat → g.state = .shortOverload) ∧
    (1 + c.irmsTimeout.toNat ≤ k → k < 1 + c.irmsTimeout.toNat + c.vdsTimeout.toNat →
      g.state = .sustainedOverload) ∧
    (1 + c.irmsTimeout.toNat + c.vdsTimeout.toNat ≤ k → g.state = .shutdown) := by
  cases h with
  | start => exact ⟨fun _ _ => by omega, fun _ _ => by omega, fun _ => by omega⟩
  | loose hs => exact ⟨fun _ _ => hs, fun _ _ => by omega, fun _ => by omega⟩
  | tight hs => exact ⟨fun _ _ => by omega, fun _ _ => hs, fun _ => by omega⟩
  | down hs => exact ⟨fun _ _ => by omega, fun _ _ => by omega, fun _ => hs⟩

theorem lasting_zcTask {s : State} {k : Nat} (hv : s.cfg.valid = true) (hcond : overloaded s)
    (h : Lasting s.cfg.ovl k s.ovl) : Lasting s.cfg.ovl (k + 1) (zcTask s).ovl := by
  obtain ⟨hirms, hvds, -⟩ := valid_ovlBounds hv
  have hno : ¬ clearsNow s := fun hclear => hclear.1 hcond
  cases h with
  | start hs hr =>
    obtain ⟨hcycle, -, -, hstate⟩ := zcTask_none_overloaded hs hcond
    rw [hr] at hstate
    exact .loose hstate.1 (by rw [hcycle]; rfl) hirms
  | loose hs hk hle =>
    rw [zcTask_loose hv hs, if_neg hno]
    split
    · next htime => exact .tight rfl (by show k + 1 = 1 + s.cfg.ovl.irmsTimeout.toNat + 0; omega) (by omega)
    · next htime =>
      have hcount := afterCount_cycle_of_lt (s := s) (limit := s.cfg.ovl.irmsTimeout) (by omega)
      exact .loose hs (by omega) (by omega)
  | tight hs hk hle =>
    rw [zcTask_tight hv hs, if_neg hno]
    split
    · next htime => exact .down rfl (by omega)
    · next htime =>
      have hcount := afterCount_cycle_of_lt (s := s) (limit := s.cfg.ovl.vdsTimeout) (by omega)
      exact .tight hs (by omega) (by omega)
  | down hs hlt =>
    rw [zcTask_shutdown hs]
    exact .down hs (by omega)

/-- A run of `zc_task`s under the condition goes on along the episode. -/
theorem lasting_run (rms : List U16) {k : Nat} {s : State} (hv : s.cfg.valid = true)
    (hrms : ∀ r ∈ rms, s.cfg.ovl.rmsThreshold.toNat < r.toNat) (h : Lasting s.cfg.ovl k s.ovl)
    (he : s.events = rms.map Event.zcTask) :
    ∃ t, Sys2Proof.core.run rms.length s = .next t ∧ Lasting s.cfg.ovl (k + rms.length) t.ovl := by
  induction rms generalizing k s with
  | nil => exact ⟨s, rfl, h⟩
  | cons r rms ih =>
    have hstep := step_zcTask hv he
    have hcfg : (zcTask (rmsSampled r (rms.map Event.zcTask) s)).cfg = s.cfg := zcTask_cfg _
    have hcond : overloaded (rmsSampled r (rms.map Event.zcTask) s) := .inl (hrms r List.mem_cons_self)
    obtain ⟨t, ht, hlast⟩ := ih (k := k + 1) (s := zcTask (rmsSampled r (rms.map Event.zcTask) s)) (hcfg ▸ hv)
      (fun q hq => hcfg ▸ hrms q (List.mem_cons_of_mem _ hq))
      (hcfg ▸ lasting_zcTask (s := rmsSampled r (rms.map Event.zcTask) s) hv hcond h)
      ((events_of_step hstep).trans (by rw [he]; rfl))
    refine ⟨t, (run_succ (M := Sys2Proof.core) hstep).trans ht, ?_⟩
    rw [hcfg, Nat.add_right_comm] at hlast
    exact hlast

/-! ### No shorter way into SHUTDOWN (46 R381) -/

/-- What `z` steps of the escalation machine since `hw_reset` may have made of the overload group. -/
structure Reached (c : OvlCfg) (z : Nat) (g : OvlGroup) : Prop where
  loose : g.state = .shortOverload → 1 + g.cycleCount.toNat ≤ z
  tight : g.state = .sustainedOverload → 1 + c.irmsTimeout.toNat + g.cycleCount.toNat ≤ z
  down : g.state = .shutdown → 1 + c.irmsTimeout.toNat + c.vdsTimeout.toNat ≤ z
  /-- A lockout, which lets the next episode start tight, runs only after a loose phase (46 R372, R377). -/
  lockout : 0 < g.retryCount.toNat → 1 + c.irmsTimeout.toNat ≤ z

theorem reached_of_none {c : OvlCfg} {z : Nat} {g : OvlGroup} (hs : g.state = .none)
    (hlock : 0 < g.retryCount.toNat → 1 + c.irmsTimeout.toNat ≤ z) : Reached c z g :=
  ⟨by simp [hs], by simp [hs], by simp [hs], hlock⟩

theorem Reached.kept {c : OvlCfg} {z : Nat} {g o : OvlGroup} (h : Reached c z g) (hk : EpisodeKept g o) :
    Reached c z o where
  loose := by rw [hk.state, hk.cycle]; exact h.loose
  tight := by rw [hk.state, hk.cycle]; exact h.tight
  down := by rw [hk.state]; exact h.down
  lockout := by rw [hk.retry]; exact h.lockout

/-- A lockout that a step has counted down was running before it. -/
theorem Reached.lockout_counted {c : OvlCfg} {z : Nat} {g : OvlGroup} (h : Reached c z g) {r : U16}
    (hr : r.toNat = g.retryCount.toNat - 1) (hpos : 0 < r.toNat) : 1 + c.irmsTimeout.toNat ≤ z + 1 := by
  have := h.lockout (by omega)
  omega

/-- From NONE a step starts loose, or tight on a lockout. -/
theorem reached_zcTask_none {s : State} {z : Nat} (h : Reached s.cfg.ovl z s.ovl) (hs : s.ovl.state = .none) :
    Reached s.cfg.ovl (z + 1) (zcTask s).ovl := by
  by_cases hcond : overloaded s
  · obtain ⟨hzero, -, hretry, hstate⟩ := zcTask_none_overloaded hs hcond
    have hlock := h.lockout_counted hretry
    split at hstate
    · exact ⟨fun _ => by rw [hzero]; exact Nat.le_add_left 1 z, by simp [hstate.1], by simp [hstate.1], hlock⟩
    · next hrun =>
      exact ⟨by simp [hstate.1], fun _ => by rw [hzero]; exact hlock (by omega), by simp [hstate.1], hlock⟩
  · rw [zcTask_none hs, if_neg (mt (overloadCond_iff s).1 hcond)]
    exact reached_of_none hs (h.lockout_counted (decU16_toNat _))

/-- From SHORT_OVERLOAD a step tightens only when the loose phase is exhausted. -/
theorem reached_zcTask_loose {s : State} {z : Nat} (hv : s.cfg.valid = true) (h : Reached s.cfg.ovl z s.ovl)
    (hs : s.ovl.state = .shortOverload) : Reached s.cfg.ovl (z + 1) (zcTask s).ovl := by
  have hloose := h.loose hs
  have hcycle := afterCount_cycle s
  have hlock := h.lockout_counted (afterCount_retry s)
  rw [zcTask_loose hv hs]
  split_ifs with hclear htime
  · exact reached_of_none rfl hlock
  · have htight : 1 + s.cfg.ovl.irmsTimeout.toNat ≤ z + 1 := by omega
    exact ⟨nofun, fun _ => htight, nofun, fun _ => htight⟩
  · have hstate : (afterCount s).ovl.state = .shortOverload := hs
    exact ⟨fun _ => by omega, by simp [hstate], by simp [hstate], hlock⟩

/-- From SUSTAINED_OVERLOAD a step shuts down only when the tight phase is exhausted. -/
theorem reached_zcTask_tight {s : State} {z : Nat} (hv : s.cfg.valid = true) (h : Reached s.cfg.ovl z s.ovl)
    (hs : s.ovl.state = .sustainedOverload) : Reached s.cfg.ovl (z + 1) (zcTask s).ovl := by
  have htight := h.tight hs
  have hcycle := afterCount_cycle s
  have hlock := h.lockout_counted (afterCount_retry s)
  rw [zcTask_tight hv hs]
  split_ifs with hclear htime
  · exact reached_of_none rfl hlock
  · exact ⟨nofun, nofun, fun _ => by omega, hlock⟩
  · have hstate : (afterCount s).ovl.state = .sustainedOverload := hs
    exact ⟨by simp [hstate], fun _ => by omega, by simp [hstate], hlock⟩

theorem reached_zcTask {s : State} {z : Nat} (hv : s.cfg.valid = true) (h : Reached s.cfg.ovl z s.ovl) :
    Reached s.cfg.ovl (z + 1) (zcTask s).ovl := by
  cases hs : s.ovl.state with
  | none => exact reached_zcTask_none h hs
  | shortOverload => exact reached_zcTask_loose hv h hs
  | sustainedOverload => exact reached_zcTask_tight hv h hs
  | shutdown =>
    have hdown := h.down hs
    have hstate : (ovlStepBegin s).ovl.state = .shutdown := hs
    rw [zcTask_shutdown hs]
    exact ⟨by simp [hstate], by simp [hstate], fun _ => by omega, h.lockout_counted (decU16_toNat _)⟩

/-- Is the event a step of the escalation machine? -/
def isTask : Event → Bool
  | .zcTask _ => true
  | _ => false

theorem isTask_of_ne {e : Event} (h : ∀ r, e ≠ .zcTask r) : isTask e = false := by
  cases e with
  | zcTask r => exact absurd rfl (h r)
  | _ => rfl

theorem length_filter_isTask (e : Event) (es : List Event) :
    ((e :: es).filter isTask).length = (if isTask e then 1 else 0) + (es.filter isTask).length := by
  cases h : isTask e <;> simp [h, Nat.add_comm]

/-- Of all events only `zc_task` takes an episode further. -/
theorem reached_runEvent {e : Event} {s t : State} {z : Nat} (hv : s.cfg.valid = true)
    (h : Reached s.cfg.ovl z s.ovl) (hrun : runEvent e s = .next t) :
    Reached s.cfg.ovl (z + if isTask e then 1 else 0) t.ovl := by
  by_cases htask : ∀ r, e ≠ .zcTask r
  · rw [isTask_of_ne htask]
    obtain hk | ⟨hend, -⟩ := episode_runEvent hrun htask
    · exact h.kept hk
    · exact reached_of_none hend.state fun hpos => h.lockout (hpos.trans_le hend.retry)
  · push Not at htask
    obtain ⟨r, rfl⟩ := htask
    cases hrun
    exact reached_zcTask (s := { s with ports.iRms := r }) hv h

/-- A run that answers a next state has taken its first step. -/
theorem step_of_run {M : Host.Core} {k : Nat} {s t : M.State} (h : M.run (k + 1) s = .next t) :
    ∃ u, M.step s = .next u ∧ M.run k u = .next t := by
  rw [Host.Core.run] at h
  split at h
  · next u hu => exact ⟨u, hu, h⟩
  · cases h
  · cases h

theorem reached_run (es : List Event) {z : Nat} {s t : State} (h : Reached s.cfg.ovl z s.ovl)
    (he : s.events = es) (hrun : Sys2Proof.core.run es.length s = .next t) :
    Reached s.cfg.ovl (z + (es.filter isTask).length) t.ovl := by
  induction es generalizing z s with
  | nil => cases hrun; exact h
  | cons e es ih =>
    obtain ⟨u, hu, hrest⟩ := step_of_run (M := Sys2Proof.core) hrun
    have hcfg : u.cfg = s.cfg := parametersNeverChange s u hu
    have hv := valid_of_step hu
    have hevent : runEvent e (beginEvent es s) = .next u := (step_event hv he).symm.trans hu
    have hnext := reached_runEvent (s := beginEvent es s) hv h hevent
    have hall := ih (hcfg ▸ hnext) (by rw [events_of_step hu, he]; rfl) hrest
    rw [hcfg, Nat.add_assoc] at hall
    rw [length_filter_isTask]
    exact hall

/-- Settles O39: the run along the episode, and the steps that any run into SHUTDOWN has taken. -/
theorem shutdownTakesBothPhases : Obligations.ShutdownTakesBothPhases := by
  refine ⟨fun s rms hv hs hr hrms => ?_, fun c es t hv hrun hdown => ?_⟩
  · obtain ⟨t, ht, hlast⟩ := lasting_run rms (s := withEvents s (rms.map Event.zcTask)) hv hrms (.start hs hr) rfl
    refine ⟨t, by rw [runs, List.length_map]; exact ht, ?_⟩
    rw [Nat.zero_add] at hlast
    exact hlast.state
  · have hreached := reached_run es (s := withEvents (State.resetWith c) es) (z := 0)
      (reached_of_none rfl fun hpos => absurd hpos (Nat.lt_irrefl 0)) rfl hrun
    have hle := hreached.down hdown
    rw [Nat.zero_add] at hle
    exact hle.trans_eq (congrArg (fun p => (es.filter p).length) (funext fun e => by cases e <;> rfl))

end Sys2Proof.Proofs
end

section
/-! PROOF. A `pwm_tick` with another handler than INVERTER (obligation O48). -/

namespace Sys2Proof.Proofs

open Sys2Proof Sys2Proof.Machine Sys2Proof.Laws Sys2Proof.Claims

/-- The safe window loaded, as the charger's tick does first (43_pid_corrector.md R242). -/
def loadSafeWindow (s : State) : State := { s with safe.safeCyclesLeft := s.cfg.safeICycles }

theorem pwmTick_charger {s : State} (h : s.ports.handler = .charger) :
    pwmTick s = .next (tickZc .chg (loadSafeWindow s)) := by
  rw [pwmTick, h, loadSafeWindow]

theorem pwmTick_ignored {s : State} (hi : s.ports.handler ≠ .inverter) (hc : s.ports.handler ≠ .charger) :
    pwmTick s = .next s := by
  unfold pwmTick
  split
  · next h => exact absurd h hi
  · next h => exact absurd h hc
  · rfl
  · rfl

/-- The group CHG and its pulses after its tick are what its function answers. -/
theorem tickZc_chg_out (s : State) :
    ((tickZc .chg s).zcChg, (tickZc .chg s).pulses.chg) = zcTick s.cfg.zcChg s.ports.acRaw s.zcChg := rfl

/-- A tick of CHG raises no pulse but its own. -/
theorem tickZc_chg_pulses (s : State) :
    (tickZc .chg s).pulses = { s.pulses with chg := (tickZc .chg s).pulses.chg } := rfl

/-- A `pwm_tick` runs with its handler and its sample on the ports, on the state the event begins in. -/
theorem step_pwmTick {s : State} (hv : s.cfg.valid = true) (h : Handler) (fb : S16) (vbus vbatt : U16) (rms : S16)
    (ac : U16) (rest : List Event) : ∃ p : Ports, p.handler = h ∧ p.acRaw = ac ∧
      step (withEvents s (.pwmTick h fb vbus vbatt rms ac :: rest)) = pwmTick { beginEvent rest s with ports := p } :=
  ⟨_, rfl, rfl, step_withEvents hv _ rest⟩

/-- Settles O48: the charger's tick is a tick of CHG after the safe window is loaded, so it has the frame of one;
the other two handlers leave the state as the event finds it. -/
theorem otherHandlersFreezeTheEngine : Obligations.OtherHandlersFreezeTheEngine := by
  intro s h fb vbus vbatt rms ac rest hv hinv
  obtain ⟨p, rfl, rfl, hstep⟩ := step_pwmTick hv h fb vbus vbatt rms ac rest
  rw [hstep]
  by_cases hc : p.handler = .charger
  · let loaded := loadSafeWindow { beginEvent rest s with ports := p }
    obtain ⟨heng, hdrive, hflags, hlatch, -, hovl⟩ :=
      writerFrame_tickZc (.zcTick .chg p.acRaw) loaded p .chg ⟨_, rfl⟩
    refine ⟨tickZc .chg loaded, pwmTick_charger hc, heng.seq, hlatch nofun, heng.ramp, heng.pid, heng.flatTop,
      heng.fbDly, heng.rebal, heng.satDet, heng.fbZeroCount, hdrive nofun, hflags nofun, hovl nofun nofun nofun,
      getZc_tickZc_other (j := .chg) (k := .inv) nofun loaded, ?_, ?_, ?_⟩
    · rw [if_pos hc]
      exact heng.safe
    · rw [if_pos hc]
      exact tickZc_chg_out loaded
    · rw [tickZc_chg_pulses]
      exact ⟨rfl, rfl, rfl⟩
  · refine ⟨_, pwmTick_ignored hinv hc, rfl, rfl, rfl, rfl, rfl, rfl, rfl, rfl, rfl, rfl, rfl, rfl, rfl, ?_⟩
    rw [if_neg hc, if_neg hc]
    exact ⟨rfl, rfl, rfl, rfl, rfl⟩

end Sys2Proof.Proofs
end

section
/-! PROOF. The state after `hw_reset`: its elements, and the whole invariant (obligations O19, O20). -/

namespace Sys2Proof.Proofs

open Sys2Proof Sys2Proof.Machine Sys2Proof.Laws Sys2Proof.Claims

/-- The `hw_reset` event runs R450's operation on the state the event begins in (70_reset_and_hazards.md R450). -/
theorem step_hwReset {s : State} (hv : s.cfg.valid = true) (rest : List Event) :
    step (withEvents s (.hwReset :: rest)) = .next (hwResetOp (beginEvent rest s)) :=
  step_withEvents hv .hwReset rest

/-- STATUS looks at no port and no event, so it reads the reset value of 20_memory.md R74. -/
theorem statusWord_hwResetOp (s : State) : statusWord (hwResetOp s) = 0 :=
  regView_resetWith s.cfg .status

/-- The state after reset is the one `hw_reset` leads back to. -/
theorem hwResetOp_resetWith (c : Cfg) : hwResetOp (State.resetWith c) = State.resetWith c := rfl

/-- Every group meets its own invariant after `hw_reset`, whatever stood there before. -/
theorem inv_hwResetOp {s : State} (hv : s.cfg.valid = true) : Inv (hwResetOp s) where
  cfg_valid := hv
  eng := engInv_hwResetOp hv
  ramp := rampInv_of_other nofun nofun
  ovl := ovlInv_reset hv rfl rfl (Nat.zero_le _)
  chg := zcInv_reset _
  inv := zcInv_reset _

theorem inv_resetWith {c : Cfg} (hv : c.valid = true) : Inv (State.resetWith c) :=
  hwResetOp_resetWith c ▸ inv_hwResetOp (s := State.resetWith c) hv

/-- Settles O19: the event completes, and the state it answers is R450's, element by element; STATUS is its reset
value. -/
theorem hwResetClearsAllState : Obligations.HwResetClearsAllState :=
  fun _ rest hv => ⟨_, step_hwReset hv rest, hwResetOp_cfg _, rfl, rfl, rfl, rfl, rfl, rfl, rfl, rfl, rfl, rfl, rfl,
    rfl, rfl, rfl, rfl, rfl, statusWord_hwResetOp _⟩

/-- Settles O20: reset leads every valid record to a state of the invariant, and FIX8 is a valid record. -/
theorem resetMeetsTheInvariant : Obligations.ResetMeetsTheInvariant :=
  ⟨fun _ => inv_resetWith, inv_resetWith (by decide)⟩

end Sys2Proof.Proofs
end
